-- ==== Sys2Proof/Word.lean ====
section
/-! DEFINITION. The words of the block (00_scope.md R10, R11; 30_encoding.md R84). -/

namespace Sys2Proof

/-- One bit of a command word: a role or a pin level (30_encoding.md R88). -/
abbrev Bit := BitVec 1

/-- A frame, and every 32-bit register or result (00_scope.md R10, R15). -/
abbrev Word32 := BitVec 32

/-- A command word (30_encoding.md R84). -/
abbrev CommandWord := BitVec 64

/-! A timestamp is a number of microseconds of `TS_W` bits, a width that is a parameter (00_scope.md R8): it is a `Nat`,
kept below `2 ^ TS_W` by the operations of Machine/Time.lean (log entry 10). -/

end Sys2Proof
end

