-- ==== Sys2Proof/Syntax.lean ====
section
/-! DEFINITION. The twenty commands of 30_encoding.md R86, with their operands (R87). -/

namespace Sys2Proof

/-- A decoded command. Operand widths are those of 30_encoding.md R85. -/
inductive Instr where
  /-- BEGIN: `role` 0 is MASTER, 1 is SLAVE (41_transceiver_ops.md R151). -/
  | beginSession (role : Bit)
  /-- END (R152). -/
  | endSession
  /-- IS_READY (R153). -/
  | isReady
  /-- SEND_REQUEST_ASYNC (R157). -/
  | sendRequestAsync (frame : Word32)
  /-- SEND_RESPONSE (R158). -/
  | sendResponse (frame : Word32)
  /-- PROCESS (R163). -/
  | process
  /-- EDGE: `pin` is the input-pin level just after the transition (42_receiver.md R200). -/
  | edge (pin : Bit)
  /-- GET_LAST_RESPONSE (R155). -/
  | getLastResponse
  /-- GET_LAST_RESPONSE_STATUS (R156). -/
  | getLastResponseStatus
  /-- GET_STATUS (R154). -/
  | getStatus
  /-- BUILD_REQUEST (40_codec.md R113). -/
  | buildRequest (type : BitVec 3) (id : BitVec 8) (value : BitVec 16)
  /-- BUILD_RESPONSE (R114). -/
  | buildResponse (type : BitVec 3) (id : BitVec 8) (value : BitVec 16)
  /-- PARITY (R111). -/
  | parity (frame : Word32)
  /-- GET_MESSAGE_TYPE (R115). -/
  | getMessageType (frame : Word32)
  /-- GET_DATA_ID (R116). -/
  | getDataId (frame : Word32)
  /-- IS_VALID_REQUEST (R117). -/
  | isValidRequest (frame : Word32)
  /-- IS_VALID_RESPONSE (R118). -/
  | isValidResponse (frame : Word32)
  /-- GET_UINT (R119). -/
  | getUint (frame : Word32)
  /-- GET_FLOAT (R120). -/
  | getFloat (frame : Word32)
  /-- TEMPERATURE_TO_DATA: `q` is a signed Q16.16 number (R121). -/
  | temperatureToData (q : Word32)
deriving DecidableEq, Repr

end Sys2Proof
end

