-- ==== Sys2Proof/Decode.lean ====
section
/-! DEFINITION. Decoding and encoding of command words (30_encoding.md R84 to R92). -/

namespace Sys2Proof

/-- Why a word is no command. Both raise `CmdError()` (30_encoding.md R89, R90). -/
inductive DecodeError where
  /-- The opcode is not in the map of R86 (R89). -/
  | reservedOpcode
  /-- A bit the opcode's format reserves is set (R90). -/
  | reservedBits
deriving DecidableEq, Repr

/-- The assigned opcodes, under the table's mnemonics (30_encoding.md R86). -/
inductive Opcode where
  | BEGIN | END | IS_READY | SEND_REQUEST_ASYNC | SEND_RESPONSE | PROCESS | EDGE
  | GET_LAST_RESPONSE | GET_LAST_RESPONSE_STATUS | GET_STATUS
  | BUILD_REQUEST | BUILD_RESPONSE | PARITY | GET_MESSAGE_TYPE | GET_DATA_ID
  | IS_VALID_REQUEST | IS_VALID_RESPONSE | GET_UINT | GET_FLOAT | TEMPERATURE_TO_DATA
deriving DecidableEq, Repr

/-- The five operand formats (30_encoding.md R85). -/
inductive Format where
  | N | F | B | L | T
deriving DecidableEq, Repr

/-- The opcode byte (R86). -/
def Opcode.code : Opcode → BitVec 8
  | .BEGIN => 0x01#8
  | .END => 0x02#8
  | .IS_READY => 0x03#8
  | .SEND_REQUEST_ASYNC => 0x04#8
  | .SEND_RESPONSE => 0x05#8
  | .PROCESS => 0x06#8
  | .EDGE => 0x07#8
  | .GET_LAST_RESPONSE => 0x08#8
  | .GET_LAST_RESPONSE_STATUS => 0x09#8
  | .GET_STATUS => 0x0A#8
  | .BUILD_REQUEST => 0x10#8
  | .BUILD_RESPONSE => 0x11#8
  | .PARITY => 0x12#8
  | .GET_MESSAGE_TYPE => 0x13#8
  | .GET_DATA_ID => 0x14#8
  | .IS_VALID_REQUEST => 0x15#8
  | .IS_VALID_RESPONSE => 0x16#8
  | .GET_UINT => 0x17#8
  | .GET_FLOAT => 0x18#8
  | .TEMPERATURE_TO_DATA => 0x19#8

/-- Every assigned opcode, in the order of R86. -/
def Opcode.all : List Opcode :=
  [.BEGIN, .END, .IS_READY, .SEND_REQUEST_ASYNC, .SEND_RESPONSE, .PROCESS, .EDGE,
   .GET_LAST_RESPONSE, .GET_LAST_RESPONSE_STATUS, .GET_STATUS] ++
  [.BUILD_REQUEST, .BUILD_RESPONSE, .PARITY, .GET_MESSAGE_TYPE, .GET_DATA_ID,
   .IS_VALID_REQUEST, .IS_VALID_RESPONSE, .GET_UINT, .GET_FLOAT, .TEMPERATURE_TO_DATA]

/-- The opcode a byte stands for; none for a reserved one (R89). -/
def Opcode.ofByte (b : BitVec 8) : Option Opcode := Opcode.all.find? fun op => op.code = b

/-- The format column of R86. -/
def Opcode.format : Opcode → Format
  | .BEGIN => .L
  | .END => .N
  | .IS_READY => .N
  | .SEND_REQUEST_ASYNC => .F
  | .SEND_RESPONSE => .F
  | .PROCESS => .N
  | .EDGE => .L
  | .GET_LAST_RESPONSE => .N
  | .GET_LAST_RESPONSE_STATUS => .N
  | .GET_STATUS => .N
  | .BUILD_REQUEST => .B
  | .BUILD_RESPONSE => .B
  | .PARITY => .F
  | .GET_MESSAGE_TYPE => .F
  | .GET_DATA_ID => .F
  | .IS_VALID_REQUEST => .F
  | .IS_VALID_RESPONSE => .F
  | .GET_UINT => .F
  | .GET_FLOAT => .F
  | .TEMPERATURE_TO_DATA => .T

/-- The bits a format reserves in the whole word (R90): `w[55:32]` always, and in the operand field all of it for N,
`w[31]` and `w[27:24]` for B, `w[31:1]` for L. -/
def Format.reserved : Format → CommandWord
  | .N => 0x00FFFFFFFFFFFFFF#64
  | .F => 0x00FFFFFF00000000#64
  | .B => 0x00FFFFFF8F000000#64
  | .L => 0x00FFFFFFFFFFFFFE#64
  | .T => 0x00FFFFFF00000000#64

/-- `w[63:56]` (R84). -/
def opcodeByte (w : CommandWord) : BitVec 8 := w.extractLsb' 56 8

/-- `w[31:0]` (R84). -/
def operandField (w : CommandWord) : Word32 := w.extractLsb' 0 32

/-- Operand assembly (R87). -/
def Opcode.assemble (op : Opcode) (w : CommandWord) : Instr :=
  let frame := operandField w
  let type := w.extractLsb' 28 3
  let id := w.extractLsb' 16 8
  let value := w.extractLsb' 0 16
  let b := w.extractLsb' 0 1
  match op with
  | .BEGIN => .beginSession b
  | .END => .endSession
  | .IS_READY => .isReady
  | .SEND_REQUEST_ASYNC => .sendRequestAsync frame
  | .SEND_RESPONSE => .sendResponse frame
  | .PROCESS => .process
  | .EDGE => .edge b
  | .GET_LAST_RESPONSE => .getLastResponse
  | .GET_LAST_RESPONSE_STATUS => .getLastResponseStatus
  | .GET_STATUS => .getStatus
  | .BUILD_REQUEST => .buildRequest type id value
  | .BUILD_RESPONSE => .buildResponse type id value
  | .PARITY => .parity frame
  | .GET_MESSAGE_TYPE => .getMessageType frame
  | .GET_DATA_ID => .getDataId frame
  | .IS_VALID_REQUEST => .isValidRequest frame
  | .IS_VALID_RESPONSE => .isValidResponse frame
  | .GET_UINT => .getUint frame
  | .GET_FLOAT => .getFloat frame
  | .TEMPERATURE_TO_DATA => .temperatureToData frame

/-- Decoding is total: the opcode, then the reserved bits of its format, then the operands (R91). -/
def decode (w : CommandWord) : Except DecodeError Instr :=
  match Opcode.ofByte (opcodeByte w) with
  | none => .error .reservedOpcode
  | some op =>
    if w &&& op.format.reserved = 0#64 then .ok (op.assemble w) else .error .reservedBits

/-- The opcode of a command (R86). -/
def Instr.opcode : Instr → Opcode
  | .beginSession _ => .BEGIN
  | .endSession => .END
  | .isReady => .IS_READY
  | .sendRequestAsync _ => .SEND_REQUEST_ASYNC
  | .sendResponse _ => .SEND_RESPONSE
  | .process => .PROCESS
  | .edge _ => .EDGE
  | .getLastResponse => .GET_LAST_RESPONSE
  | .getLastResponseStatus => .GET_LAST_RESPONSE_STATUS
  | .getStatus => .GET_STATUS
  | .buildRequest _ _ _ => .BUILD_REQUEST
  | .buildResponse _ _ _ => .BUILD_RESPONSE
  | .parity _ => .PARITY
  | .getMessageType _ => .GET_MESSAGE_TYPE
  | .getDataId _ => .GET_DATA_ID
  | .isValidRequest _ => .IS_VALID_REQUEST
  | .isValidResponse _ => .IS_VALID_RESPONSE
  | .getUint _ => .GET_UINT
  | .getFloat _ => .GET_FLOAT
  | .temperatureToData _ => .TEMPERATURE_TO_DATA

/-- Format N's operand field (R85). -/
def operandN : Word32 := 0#32

/-- Format L's operand field (R85). -/
def operandL (b : Bit) : Word32 := 0#31 ++ b

/-- Format B's operand field (R85): the build operands at their places in the frame. -/
def operandB (type : BitVec 3) (id : BitVec 8) (value : BitVec 16) : Word32 :=
  0#1 ++ type ++ 0#4 ++ id ++ value

/-- The operand field of a command's word (R85). Formats F and T are the operand itself. -/
def Instr.operand : Instr → Word32
  | .beginSession role => operandL role
  | .endSession => operandN
  | .isReady => operandN
  | .sendRequestAsync frame => frame
  | .sendResponse frame => frame
  | .process => operandN
  | .edge pin => operandL pin
  | .getLastResponse => operandN
  | .getLastResponseStatus => operandN
  | .getStatus => operandN
  | .buildRequest type id value => operandB type id value
  | .buildResponse type id value => operandB type id value
  | .parity frame => frame
  | .getMessageType frame => frame
  | .getDataId frame => frame
  | .isValidRequest frame => frame
  | .isValidResponse frame => frame
  | .getUint frame => frame
  | .getFloat frame => frame
  | .temperatureToData q => q

/-- The command word of an instruction (R84 to R87). -/
def encode (i : Instr) : CommandWord := i.opcode.code ++ 0#24 ++ i.operand

/-! ## The opcode table (R91) -/

/-- The `match` column of spec/opcode_table.json. -/
def Opcode.tableMatch : Opcode → CommandWord
  | .BEGIN => 0x0100000000000000#64
  | .END => 0x0200000000000000#64
  | .IS_READY => 0x0300000000000000#64
  | .SEND_REQUEST_ASYNC => 0x0400000000000000#64
  | .SEND_RESPONSE => 0x0500000000000000#64
  | .PROCESS => 0x0600000000000000#64
  | .EDGE => 0x0700000000000000#64
  | .GET_LAST_RESPONSE => 0x0800000000000000#64
  | .GET_LAST_RESPONSE_STATUS => 0x0900000000000000#64
  | .GET_STATUS => 0x0A00000000000000#64
  | .BUILD_REQUEST => 0x1000000000000000#64
  | .BUILD_RESPONSE => 0x1100000000000000#64
  | .PARITY => 0x1200000000000000#64
  | .GET_MESSAGE_TYPE => 0x1300000000000000#64
  | .GET_DATA_ID => 0x1400000000000000#64
  | .IS_VALID_REQUEST => 0x1500000000000000#64
  | .IS_VALID_RESPONSE => 0x1600000000000000#64
  | .GET_UINT => 0x1700000000000000#64
  | .GET_FLOAT => 0x1800000000000000#64
  | .TEMPERATURE_TO_DATA => 0x1900000000000000#64

/-- The `mask` column of spec/opcode_table.json. -/
def Opcode.tableMask : Opcode → CommandWord
  | .BEGIN => 0xFFFFFFFFFFFFFFFE#64
  | .END => 0xFFFFFFFFFFFFFFFF#64
  | .IS_READY => 0xFFFFFFFFFFFFFFFF#64
  | .SEND_REQUEST_ASYNC => 0xFFFFFFFF00000000#64
  | .SEND_RESPONSE => 0xFFFFFFFF00000000#64
  | .PROCESS => 0xFFFFFFFFFFFFFFFF#64
  | .EDGE => 0xFFFFFFFFFFFFFFFE#64
  | .GET_LAST_RESPONSE => 0xFFFFFFFFFFFFFFFF#64
  | .GET_LAST_RESPONSE_STATUS => 0xFFFFFFFFFFFFFFFF#64
  | .GET_STATUS => 0xFFFFFFFFFFFFFFFF#64
  | .BUILD_REQUEST => 0xFFFFFFFF8F000000#64
  | .BUILD_RESPONSE => 0xFFFFFFFF8F000000#64
  | .PARITY => 0xFFFFFFFF00000000#64
  | .GET_MESSAGE_TYPE => 0xFFFFFFFF00000000#64
  | .GET_DATA_ID => 0xFFFFFFFF00000000#64
  | .IS_VALID_REQUEST => 0xFFFFFFFF00000000#64
  | .IS_VALID_RESPONSE => 0xFFFFFFFF00000000#64
  | .GET_UINT => 0xFFFFFFFF00000000#64
  | .GET_FLOAT => 0xFFFFFFFF00000000#64
  | .TEMPERATURE_TO_DATA => 0xFFFFFFFF00000000#64

/-- A word numbered as spec/opcode_table.json numbers it: every row is 64 bits, bit 0 the least significant (R92,
00_scope.md R11); bits above `nbits` are 0. -/
def commandWordOf (nbits w : Nat) : CommandWord := BitVec.ofNat 64 (w % 2 ^ nbits)

/-- What the decoder reads from a table word. -/
def decodeTableWord (nbits w : Nat) : Option Instr := (decode (commandWordOf nbits w)).toOption

end Sys2Proof
end

