-- ==== Sys2Proof/Config.lean ====
section
/-! DEFINITION. The implementation parameters (00_scope.md R8) and the one free value of the model. -/

namespace Sys2Proof

/-- The roundings of TEMPERATURE_TO_DATA (40_codec.md R122). -/
inductive F88Round where
  | nearestAway
  | nearestEven
  | truncate
deriving DecidableEq, Repr

/-- The overflow handlings of TEMPERATURE_TO_DATA (40_codec.md R123). -/
inductive F88Ovf where
  | wrap
  | saturate
deriving DecidableEq, Repr

/-- The named constants of 00_scope.md R8, as data. They are configuration: no command reads or writes them
(10_state.md R48). Which sets are legal is R9, `Params.legal`. -/
structure Params where
  /-- `TS_W`, the width of every timestamp. -/
  tsW : Nat
  /-- `T_BIT`, the bit period in microseconds. -/
  tBit : Nat
  halfMin : Nat
  halfMax : Nat
  bitMin : Nat
  bitMax : Nat
  /-- `RESP_TIMEOUT`. -/
  respTimeout : Nat
  /-- `DELAY_GAP`. -/
  delayGap : Nat
  /-- `RX_IDLE_PIN`: the input-pin level the block reads as IDLE. -/
  rxIdlePin : Bit
  f88Round : F88Round
  f88Ovf : F88Ovf
deriving DecidableEq, Repr

/-- `HALF`, derived from `T_BIT` (00_scope.md R8). -/
def Params.half (c : Params) : Nat := c.tBit / 2

/-- `B`, the bound of an exchange in microseconds (41_transceiver_ops.md R172). -/
def Params.bound (c : Params) : Nat := 34 * c.tBit + c.respTimeout + c.halfMax + 33 * c.bitMax

/-- The value column of 00_scope.md R8. DESIGN CHOICE (log entry 1): `State.reset` takes these; unsafe for a claim
about a run from reset read as a claim about another configuration. -/
def Params.standard : Params where
  tsW := 32
  tBit := 1000
  halfMin := 400
  halfMax := 650
  bitMin := 900
  bitMax := 1150
  respTimeout := 1000000
  delayGap := 100000
  rxIdlePin := 1#1
  f88Round := .nearestAway
  f88Ovf := .wrap

/-- The elapsed time read when the host has broken the timestamp discipline of 70_reset_and_hazards.md R276:
93_implementation_defined.md I21 gives it "any value". Free value: it has no body. It takes the reading event's
index and the two timestamps (log entry 4). -/
opaque Config.freeElapsed : Nat → Nat → Nat → Nat

end Sys2Proof
end

