-- ==== Sys2Proof/Machine/State.lean ====
section
/-! DEFINITION. The state of the block (10_state.md), its outputs (00_scope.md R15), the events presented to it and
its value after reset. -/

namespace Sys2Proof.Machine

/-- The protocol states (10_state.md R31), in the table's order. -/
inductive Status where
  | notInitialized
  | ready
  | delay
  | requestSending
  | responseWaiting
  | responseStartBit
  | responseReceiving
  | responseReady
  | responseInvalid
deriving DecidableEq, Repr

/-- The role (10_state.md R32). -/
inductive Role where
  | master
  | slave
deriving DecidableEq, Repr

/-- The logical line levels (00_scope.md R17). -/
inductive Level where
  | active
  | idle
deriving DecidableEq, Repr

/-- The response statuses (10_state.md R39). -/
inductive RespStatus where
  | none
  | success
  | invalid
  | timeout
deriving DecidableEq, Repr

/-- The kinds of transmission (10_state.md R42). -/
inductive TxKind where
  | request
  | response
deriving DecidableEq, Repr

/-- The registers, the `R` of 00_scope.md R12 (10_state.md R30 to R42). -/
structure Regs where
  status : Status
  role : Role
  rxReg : Word32
  bitIndex : BitVec 6
  boundarySeen : Bool
  lastLevel : Level
  tRef : Nat
  lastResponse : Word32
  lastStatus : RespStatus
  txFrame : Word32
  txStart : Nat
  txKind : TxKind
deriving DecidableEq, Repr

/-- The result bundle of one event (00_scope.md R15). -/
structure Out where
  res : Word32
  ok : Bool
  cmdErr : Bool
  done : Bool
  rstat : RespStatus
deriving DecidableEq, Repr

/-- What the environment presents next (00_scope.md R12; 20_memory.md R64, R68; 60_exceptions.md R250;
70_reset_and_hazards.md R270). -/
inductive Arrival where
  /-- A transition of the input line, on the edge port: its time and the pin level after it. -/
  | edge (now : Nat) (pin : Bit)
  /-- A command word of the foreground host, with its time. -/
  | command (now : Nat) (word : CommandWord)
  /-- An edge and a command word presented in the same instant (20_memory.md R68). -/
  | both (now : Nat) (pin : Bit) (word : CommandWord)
  /-- The reset input (70_reset_and_hazards.md R270). -/
  | reset
deriving DecidableEq, Repr

/-- The state: the block's registers and last outputs, its configuration, and the model's own fields (INVENTORY.md,
State). -/
structure State where
  /-- The parameters (00_scope.md R8), which nothing changes (log entry 1). -/
  cfg : Params
  regs : Regs
  /-- The outputs of the last event (log entry 3). -/
  out : Out
  /-- The timestamp of the event being executed; between steps, that of the last event (log entry 4). -/
  now : Nat
  /-- The events still to come, in the total order of 20_memory.md R67 (log entry 2). -/
  arrivals : List Arrival
  /-- An event broke the timestamp discipline (70_reset_and_hazards.md R276) while an exchange was open, and that
  exchange has not been reported nor followed by a new one (log entry 4). -/
  undisciplined : Bool
  /-- The index the free elapsed times are read at; each event advances it (log entry 4). -/
  freeIndex : Nat
deriving DecidableEq, Repr

/-- The block has no trap, and no error of its stops it (60_exceptions.md R240): the model has no fault. Safe and
exact: no step answers a fault. -/
inductive Fault where
deriving DecidableEq, Repr

/-- The reasons `step` gives no next state. -/
inductive Refusal where
  /-- Raised by an arm of `exec` whose instruction has no meaning yet; there is none left. Safe. -/
  | notModelled (mnemonic : String)
  /-- Raised by `step` on a parameter set that violates 00_scope.md R9: "A model must refuse a configuration that
  violates one". Safe (log entry 6). -/
  | illegalParameters
deriving DecidableEq, Repr

/-- How a step ends. -/
abbrev Result := Host.Outcome State Fault Refusal

/-- The registers after reset (10_state.md R51, 70_reset_and_hazards.md R270). -/
def Regs.reset : Regs where
  status := .notInitialized
  role := .master
  rxReg := 0#32
  bitIndex := 0#6
  boundarySeen := false
  lastLevel := .idle
  tRef := 0
  lastResponse := 0#32
  lastStatus := .none
  txFrame := 0#32
  txStart := 0
  txKind := .request

/-- The default outputs of a step (00_scope.md R15). -/
def Out.default : Out where
  res := 0#32
  ok := true
  cmdErr := false
  done := false
  rstat := .none

/-- The state after reset of a block with parameters `c`. DESIGN CHOICE: the outputs are the defaults of R15 (log
entry 3), no event is presented (log entry 2), and the model's own fields are 0 and false (log entry 4). -/
def State.resetWith (c : Params) : State where
  cfg := c
  regs := Regs.reset
  out := Out.default
  now := 0
  arrivals := []
  undisciplined := false
  freeIndex := 0

/-- The machine right after reset, with the parameter values of 00_scope.md R8 (log entry 1). -/
def State.reset : State := State.resetWith Params.standard

end Sys2Proof.Machine
end

