-- ==== Sys2Proof/Machine/Flags.lean ====
section
/-! DEFINITION. The numeric codes of the registers and the result bundles of a step. The block has no condition codes
(10_state.md R47): its flags are the outputs `ok`, `cmd_err`, `done` and `rstat` (00_scope.md R15, R16). -/

namespace Sys2Proof.Machine

/-- The codes of 10_state.md R31. -/
def Status.code : Status → BitVec 4
  | .notInitialized => 0#4
  | .ready => 1#4
  | .delay => 2#4
  | .requestSending => 3#4
  | .responseWaiting => 4#4
  | .responseStartBit => 5#4
  | .responseReceiving => 6#4
  | .responseReady => 7#4
  | .responseInvalid => 8#4

/-- The codes of 10_state.md R39. -/
def RespStatus.code : RespStatus → BitVec 2
  | .none => 0#2
  | .success => 1#2
  | .invalid => 2#2
  | .timeout => 3#2

/-- The codes of 00_scope.md R17: IDLE 1, ACTIVE 0. On the output these are the physical levels high and low. -/
def Level.code : Level → Bit
  | .active => 0#1
  | .idle => 1#1

/-- The role BEGIN's operand names (30_encoding.md R88). -/
def roleOf (b : Bit) : Role := if b = 0#1 then .master else .slave

/-- The logical level of an input-pin level (42_receiver.md R200). -/
def levelOfPin (c : Params) (p : Bit) : Level := if p = c.rxIdlePin then .idle else .active

/-- The input-pin level of a logical level, the inverse of `levelOfPin`. -/
def pinOfLevel (c : Params) : Level → Bit
  | .idle => c.rxIdlePin
  | .active => ~~~c.rxIdlePin

/-- A 32-bit result with the default outputs. -/
def Out.value (v : Word32) : Out :=
  { res := v, ok := true, cmdErr := false, done := false, rstat := .none }

/-- A boolean result: `ok = b` and `res = zext_32(b)` (00_scope.md R15). -/
def Out.bool (b : Bool) : Out :=
  { res := if b then 1#32 else 0#32, ok := b, cmdErr := false, done := false, rstat := .none }

/-- The outputs of `reject()` (R16). -/
def Out.rejected : Out :=
  { res := 0#32, ok := false, cmdErr := false, done := false, rstat := .none }

/-- The outputs of `raise CmdError()` (R16). -/
def Out.cmdError : Out :=
  { res := 0#32, ok := false, cmdErr := true, done := false, rstat := .none }

/-- The outputs of `report(v, s)` (R16). -/
def Out.report (v : Word32) (s : RespStatus) : Out :=
  { res := v, ok := true, cmdErr := false, done := true, rstat := s }

end Sys2Proof.Machine
end

