-- ==== Sys2Proof/Machine/Operands.lean ====
section
/-! DEFINITION. The fields of a frame, the data-value views and the f8.8 conversions (30_encoding.md R80 to R83;
40_codec.md R110, R112, R120 to R123). -/

namespace Sys2Proof.Machine

/-- `frame[30:28]`, the message type (30_encoding.md R80). -/
def messageType (f : Word32) : BitVec 3 := f.extractLsb' 28 3

/-- `frame[27:24]`, the spare bits (R80). -/
def spare (f : Word32) : BitVec 4 := f.extractLsb' 24 4

/-- `frame[23:16]`, the data-id (R80). -/
def dataId (f : Word32) : BitVec 8 := f.extractLsb' 16 8

/-- `frame[15:0]`, the data-value (R80). -/
def dataValue (f : Word32) : BitVec 16 := f.extractLsb' 0 16

/-- `MASTER_TYPES = {0, 1, 2}` (30_encoding.md R82). -/
def isMasterType (t : BitVec 3) : Bool := t = 0#3 || t = 1#3 || t = 2#3

/-- `SLAVE_TYPES = {4, 5, 6, 7}` (R82). -/
def isSlaveType (t : BitVec 3) : Bool := t = 4#3 || t = 5#3 || t = 6#3 || t = 7#3

/-- `popcount(v)`, the number of set bits (00_scope.md R11). -/
def popcount (v : Word32) : Nat := (List.range 32).countP fun i => v.getLsbD i

/-- `parity(f)`: true exactly when the number of set bits is odd (40_codec.md R110). -/
def oddParity (f : Word32) : Bool := popcount f % 2 = 1

/-- `0 ++ type ++ 0b0000 ++ id ++ value`, a frame's content (40_codec.md R113, R114). -/
def content (type : BitVec 3) (id : BitVec 8) (value : BitVec 16) : Word32 :=
  0#1 ++ type ++ 0#4 ++ id ++ value

/-- The parity generator (40_codec.md R112). -/
def withParity (c : Word32) : Word32 := if oddParity c then c ||| 1#32 <<< 31 else c

/-- The validity test of IS_VALID_REQUEST (40_codec.md R117). -/
def validRequest (f : Word32) : Bool := !oddParity f && isMasterType (messageType f)

/-- The validity test of IS_VALID_RESPONSE (40_codec.md R118). -/
def validResponse (f : Word32) : Bool := !oddParity f && isSlaveType (messageType f)

/-! The views of a data-value (30_encoding.md R83). The block computes `u16` and `f8.8`; the others are the bit
selections a host makes. -/

/-- `v[15:8]`: the high byte of `flag8/flag8` and `u8/u8`. -/
def highByte (v : BitVec 16) : BitVec 8 := v.extractLsb' 8 8

/-- `v[7:0]`: the low byte of `flag8/flag8` and `u8/u8`. -/
def lowByte (v : BitVec 16) : BitVec 8 := v.extractLsb' 0 8

/-- `u16`. -/
def viewU16 (v : BitVec 16) : Nat := v.toNat

/-- `s16`. -/
def viewS16 (v : BitVec 16) : Int := v.toInt

/-- `f8.8`: the exact value `sext(v) / 256`. -/
def viewF88 (v : BitVec 16) : ℚ := (v.toInt : ℚ) / 256

/-- `(sext_32(v) * 256) mod 2^32`: an f8.8 value in Q16.16 (40_codec.md R120). -/
def f88ToQ16 (v : BitVec 16) : Word32 := BitVec.ofInt 32 (v.toInt * 256)

/-- `sign(s) * n`. -/
def withSign (s : Int) (n : Nat) : Int := if s < 0 then -(n : Int) else n

/-- `round_F88_ROUND(s / 256)` (40_codec.md R122). -/
def roundF88 (m : F88Round) (s : Int) : Int :=
  match m with
  | .nearestAway => withSign s ((s.natAbs + 128) / 256)
  | .nearestEven =>
    let below := s / 256
    let rest := s % 256
    if rest < 128 then below
    else if 128 < rest then below + 1
    else if below % 2 = 0 then below else below + 1
  | .truncate => withSign s (s.natAbs / 256)

/-- The clamp of `F88_OVF = SATURATE`, and nothing under WRAP (40_codec.md R123). -/
def clampF88 (m : F88Ovf) (r : Int) : Int :=
  match m with
  | .wrap => r
  | .saturate => min 32767 (max (-32768) r)

/-- TEMPERATURE_TO_DATA's 16-bit result (40_codec.md R121). -/
def q16ToF88 (c : Params) (q : Word32) : BitVec 16 :=
  BitVec.ofInt 16 (clampF88 c.f88Ovf (roundF88 c.f88Round q.toInt))

end Sys2Proof.Machine
end

