-- ==== Sys2Proof/Machine/Time.lean ====
section
/-! DEFINITION. Time arithmetic modulo `2 ^ TS_W` (00_scope.md R14). -/

namespace Sys2Proof.Machine

/-- `elapsed(t, t0) = (t - t0) mod 2^TS_W` (00_scope.md R14), `w` being `TS_W`. -/
def elapsed (w : Nat) (t t0 : Nat) : Nat := (t + (2 ^ w - t0 % 2 ^ w)) % 2 ^ w

/-- `(t + d) mod 2^TS_W`, as in `tEnd` of 41_transceiver_ops.md R150. -/
def addTime (w : Nat) (t : Nat) (d : Nat) : Nat := (t + d) % 2 ^ w

/-- A timestamp as the block receives it: `TS_W` bits (00_scope.md R12). -/
def stamp (w : Nat) (t : Nat) : Nat := t % 2 ^ w

end Sys2Proof.Machine
end

