-- ==== Sys2Proof/Machine/Ops.lean ====
section
/-! DEFINITION. The shared operations: register updates, outcomes (00_scope.md R16), time, the transmit-completion
pre-step (41_transceiver_ops.md R150), and the presentation of events (00_scope.md R12; 20_memory.md R67, R68). -/

namespace Sys2Proof.Machine

/-! ## Register updates -/

/-- `status <- p`. -/
def Regs.setStatus (r : Regs) (p : Status) : Regs := { r with status := p }

/-- `status <- p; tRef <- t`. -/
def Regs.enter (r : Regs) (p : Status) (t : Nat) : Regs := { r with status := p, tRef := t }

/-- `rxReg <- 0; bitIndex <- 0; boundarySeen <- 0; lastLevel <- l`. -/
def Regs.clearReception (r : Regs) (l : Level) : Regs :=
  { r with rxReg := 0#32, bitIndex := 0#6, boundarySeen := false, lastLevel := l }

/-- BEGIN's writes beside the reception registers (41_transceiver_ops.md R151). -/
def Regs.openSession (r : Regs) (role : Role) (t : Nat) : Regs :=
  { r with status := .ready, role := role, tRef := t, lastResponse := 0#32, lastStatus := .none }

/-- The writes the two send commands share (41_transceiver_ops.md R157, R158). -/
def Regs.startSending (r : Regs) (k : TxKind) (f : Word32) (t : Nat) : Regs :=
  { r with status := .requestSending, txKind := k, txFrame := f, txStart := t }

/-- The writes of a completion report (41_transceiver_ops.md R166 to R168). -/
def Regs.complete (r : Regs) (v : Word32) (st : RespStatus) (t : Nat) : Regs :=
  { r with lastResponse := v, lastStatus := st, status := .delay, tRef := t }

/-- The start bit's leading edge (42_receiver.md R203, R205). -/
def Regs.startBit (r : Regs) (t : Nat) : Regs :=
  { r with status := .responseStartBit, tRef := t, lastLevel := .active }

/-- The start bit's mid-bit edge (42_receiver.md R207). -/
def Regs.beginData (r : Regs) (t : Nat) : Regs :=
  { r with status := .responseReceiving, tRef := t, bitIndex := 0#6, boundarySeen := false, lastLevel := .idle }

/-- An accepted boundary edge (42_receiver.md R210). -/
def Regs.acceptBoundary (r : Regs) (l : Level) : Regs := { r with boundarySeen := true, lastLevel := l }

/-- The value of the bit whose mid-bit transition goes to `l` (42_receiver.md R211, R214). -/
def bitOf (l : Level) : Bit :=
  match l with
  | .idle => 1#1
  | .active => 0#1

/-- `((v << 1) | bit) mod 2^32` (42_receiver.md R211). -/
def shiftIn (v : Word32) (b : Bit) : Word32 := v <<< 1 ||| b.zeroExtend 32

/-- An accepted data bit (42_receiver.md R211). -/
def Regs.acceptBit (r : Regs) (l : Level) (t : Nat) : Regs :=
  { r with
    rxReg := shiftIn r.rxReg (bitOf l), bitIndex := r.bitIndex + 1#6
    tRef := t, boundarySeen := false, lastLevel := l }

/-- The accepted stop bit (42_receiver.md R212). -/
def Regs.acceptStop (r : Regs) (t : Nat) : Regs :=
  { r with status := .responseReady, tRef := t, boundarySeen := false, lastLevel := .idle }

/-! ## State updates -/

namespace State

/-- Write the registers. -/
def setRegs (s : State) (r : Regs) : State := { s with regs := r }

/-- Set the outputs of this event. -/
def answer (s : State) (o : Out) : State := { s with out := o }

/-- The timestamps relied on from here on are of this event or later: an exchange opens, or is reported (log entry 4). -/
def trustTime (s : State) : State := { s with undisciplined := false }

/-! ## Outcomes (00_scope.md R16) -/

end State

/-- The source's error classes (60_exceptions.md R241 to R243). -/
inductive FaultCause where
  | timing
  | framing
  | polarity
deriving DecidableEq, Repr

namespace State

/-- `raise CmdError()` on the state before the pre-step: no register changes (00_scope.md R16, 60_exceptions.md R247). -/
def cmdError (s : State) : State := s.answer Out.cmdError

/-- `reject()` on the state after the pre-step (00_scope.md R16, 60_exceptions.md R246). -/
def reject (s : State) : State := s.answer Out.rejected

/-- The event changes nothing and has the default outputs. -/
def ignore (s : State) : State := s.answer Out.default

/-- `fault(cause)`: only `status` is written, and the cause is not stored (00_scope.md R16, 60_exceptions.md R252). -/
def fault (s : State) (_cause : FaultCause) : State :=
  (s.setRegs (s.regs.setStatus .responseInvalid)).answer Out.default

/-- A completion report with its register writes (41_transceiver_ops.md R166 to R168, 60_exceptions.md R248). -/
def report (s : State) (v : Word32) (st : RespStatus) : State :=
  ((s.setRegs (s.regs.complete v st s.now)).trustTime).answer (Out.report v st)

/-! ## Time -/

/-- `elapsed(t, t0)` as the open exchange may rely on it: R14's difference while the host keeps the timestamp
discipline, a free value once it has broken it (93_implementation_defined.md I21; log entry 4). -/
def timeSince (s : State) (t t0 : Nat) : Nat :=
  if s.undisciplined then Config.freeElapsed s.freeIndex t t0 % 2 ^ s.cfg.tsW else elapsed s.cfg.tsW t t0

/-- `d = elapsed(now, R.tRef)`. -/
def sinceRef (s : State) : Nat := s.timeSince s.now s.regs.tRef

/-- `elapsed(now, R.txStart)`. -/
def sinceStart (s : State) : Nat := s.timeSince s.now s.regs.txStart

/-- The timestamp the current state's deadline is measured from (60_exceptions.md R255). -/
def reference (s : State) : Nat :=
  match s.regs.status with
  | .requestSending => s.regs.txStart
  | .notInitialized | .ready | .delay | .responseWaiting | .responseStartBit | .responseReceiving
  | .responseReady | .responseInvalid => s.regs.tRef

/-- 00_scope.md R14's time since the report, which DELAY is measured from (41_transceiver_ops.md R169). It is never free: the
exchange is over at its report (70_reset_and_hazards.md R281), so 93_implementation_defined.md I21 does not reach it
(log entry 4). -/
def sinceReport (s : State) : Nat := elapsed s.cfg.tsW s.now s.regs.tRef

/-- An exchange is open: the last state is one of 70_reset_and_hazards.md R281's six. -/
def exchangeOpen (s : State) : Bool :=
  match s.regs.status with
  | .requestSending | .responseWaiting | .responseStartBit | .responseReceiving | .responseReady
  | .responseInvalid => true
  | .notInitialized | .ready | .delay => false

/-- An event at `t` breaks the timestamp discipline of 70_reset_and_hazards.md R276: `t` lies before the last event, or
`2^(TS_W-1)` microseconds or more after the last event or after the reference (log entries 4 and 5). -/
def breaksDiscipline (s : State) (t : Nat) : Bool :=
  2 ^ (s.cfg.tsW - 1) ≤ elapsed s.cfg.tsW t s.now || 2 ^ (s.cfg.tsW - 1) ≤ elapsed s.cfg.tsW t s.reference

/-! ## The transmit-completion pre-step -/

/-- The transmission's 34 bit periods are over. -/
def sent (s : State) : Bool := s.regs.status = .requestSending && 34 * s.cfg.tBit ≤ s.sinceStart

/-- The time the transmission ends at. -/
def txEnd (s : State) : Nat := addTime s.cfg.tsW s.regs.txStart (34 * s.cfg.tBit)

/-- The state after a transmission (41_transceiver_ops.md R150). -/
def afterSending (s : State) : Status :=
  match s.regs.txKind with
  | .request => .responseWaiting
  | .response => .ready

/-- The pre-step every event applies first (41_transceiver_ops.md R150). -/
def preStep (s : State) : State :=
  if s.sent then s.setRegs (s.regs.enter s.afterSending s.txEnd) else s

/-! ## Presenting an event -/

/-- The state in which an event at `t` is executed, `rest` being what the environment presents after it. A break of the
discipline counts while an exchange is open (93_implementation_defined.md I21; log entry 4). -/
def accept (s : State) (t : Nat) (rest : List Arrival) : State :=
  { s with
    now := stamp s.cfg.tsW t
    arrivals := rest
    undisciplined := s.undisciplined || (s.exchangeOpen && s.breaksDiscipline (stamp s.cfg.tsW t))
    freeIndex := s.freeIndex + 1 }

/-- A hardware reset: every register takes its reset value, and no report is made (70_reset_and_hazards.md R270, R271;
log entry 7). -/
def hardwareReset (s : State) (rest : List Arrival) : State :=
  { s with regs := Regs.reset, out := Out.default, arrivals := rest, undisciplined := false }

end State

/-- The command word of an edge notification (42_receiver.md R200; log entry 9). -/
def edgeWord (pin : Bit) : CommandWord := 0x07#8 ++ 0#55 ++ pin

/-- What `step` finds presented. -/
inductive Presented where
  /-- Nothing: the block takes no step (log entry 2). -/
  | nothing
  /-- A reset, which leaves this state. -/
  | reset (after : State)
  /-- An event: its command word, and the state it is executed in. -/
  | event (word : CommandWord) (at_ : State)

/-- The next event, in the environment's order (20_memory.md R67); of an edge and a command presented in the same
instant the edge comes first (R68). DESIGN CHOICE (log entry 8): the same instant is one `both` arrival, and two separate
arrivals are stepped in the list's order also where their timestamps are equal. -/
def State.fetch (s : State) : Presented :=
  match s.arrivals with
  | [] => .nothing
  | .reset :: rest => .reset (s.hardwareReset rest)
  | .command t w :: rest => .event w (s.accept t rest)
  | .edge t pin :: rest => .event (edgeWord pin) (s.accept t rest)
  | .both t pin w :: rest => .event (edgeWord pin) (s.accept t (.command t w :: rest))

end Sys2Proof.Machine
end

