-- ==== Sys2Proof/Machine/Codec.lean ====
section
/-! DEFINITION. The frame codec (40_codec.md). Every command is pure: it runs the pre-step and answers a result, and
writes no register of its own (R131). -/

namespace Sys2Proof.Machine

/-- A codec command's step: the pre-step, then the outputs. -/
def State.codec (s : State) (o : Out) : State := s.preStep.answer o

/-- PARITY (40_codec.md R111). -/
def execParity (frame : Word32) (s : State) : Result := .next (s.codec (Out.bool (oddParity frame)))

/-- BUILD_REQUEST (R113): a type outside `MASTER_TYPES` is a command error, which discards the pre-step too. -/
def execBuildRequest (type : BitVec 3) (id : BitVec 8) (value : BitVec 16) (s : State) : Result :=
  .next (if isMasterType type then s.codec (Out.value (withParity (content type id value))) else s.cmdError)

/-- BUILD_RESPONSE (R114). -/
def execBuildResponse (type : BitVec 3) (id : BitVec 8) (value : BitVec 16) (s : State) : Result :=
  .next (if isSlaveType type then s.codec (Out.value (withParity (content type id value))) else s.cmdError)

/-- GET_MESSAGE_TYPE (R115). -/
def execGetMessageType (frame : Word32) (s : State) : Result :=
  .next (s.codec (Out.value ((messageType frame).zeroExtend 32)))

/-- GET_DATA_ID (R116). -/
def execGetDataId (frame : Word32) (s : State) : Result :=
  .next (s.codec (Out.value ((dataId frame).zeroExtend 32)))

/-- IS_VALID_REQUEST (R117). -/
def execIsValidRequest (frame : Word32) (s : State) : Result := .next (s.codec (Out.bool (validRequest frame)))

/-- IS_VALID_RESPONSE (R118). -/
def execIsValidResponse (frame : Word32) (s : State) : Result := .next (s.codec (Out.bool (validResponse frame)))

/-- GET_UINT (R119). -/
def execGetUint (frame : Word32) (s : State) : Result :=
  .next (s.codec (Out.value ((dataValue frame).zeroExtend 32)))

/-- GET_FLOAT (R120). -/
def execGetFloat (frame : Word32) (s : State) : Result :=
  .next (s.codec (Out.value (f88ToQ16 (dataValue frame))))

/-- TEMPERATURE_TO_DATA (R121 to R123). -/
def execTemperatureToData (q : Word32) (s : State) : Result :=
  .next (s.codec (Out.value ((q16ToF88 s.cfg q).zeroExtend 32)))

end Sys2Proof.Machine
end

