-- ==== Sys2Proof/Machine/Poll.lean ====
section
/-! DEFINITION. PROCESS (41_transceiver_ops.md R163 to R170). -/

namespace Sys2Proof.Machine

namespace State

/-- PROCESS in RESPONSE_START_BIT (R164). -/
def pollStartBit (s : State) : State := if s.cfg.halfMax < s.sinceRef then s.fault .timing else s.ignore

/-- PROCESS in RESPONSE_RECEIVING (R165). -/
def pollReceiving (s : State) : State :=
  if s.cfg.bitMax < s.sinceRef then s.fault (if s.regs.bitIndex = 32#6 then .framing else .timing) else s.ignore

/-- PROCESS in RESPONSE_WAITING (R166). -/
def pollWaiting (s : State) : State :=
  if s.cfg.respTimeout < s.sinceRef then s.report 0#32 .timeout else s.ignore

/-- PROCESS in DELAY (R169), where no exchange is open and no elapsed time is free (log entry 4). -/
def pollDelay (s : State) : State :=
  if s.cfg.delayGap < s.sinceReport then (s.setRegs (s.regs.enter .ready s.now)).answer Out.default else s.ignore

/-- PROCESS on the state after the pre-step, by `status` (R163). -/
def poll (s : State) : State :=
  match s.regs.status with
  | .responseStartBit => s.pollStartBit
  | .responseReceiving => s.pollReceiving
  | .responseWaiting => s.pollWaiting
  | .responseInvalid => s.report s.regs.rxReg .invalid
  | .responseReady => s.report s.regs.rxReg .success
  | .delay => s.pollDelay
  | .notInitialized => s.ignore
  | .ready => s.ignore
  | .requestSending => s.ignore

end State

/-- PROCESS (R163). -/
def execProcess (s : State) : Result := .next s.preStep.poll

end Sys2Proof.Machine
end

