-- ==== Sys2Proof/Machine/Receiver.lean ====
section
/-! DEFINITION. EDGE: the receive state machine and the bit-timing synchronizer (42_receiver.md). -/

namespace Sys2Proof.Machine

namespace State

/-- `HALF_MIN <= d <= HALF_MAX`. -/
def inHalfWindow (s : State) : Bool := s.cfg.halfMin ≤ s.sinceRef && s.sinceRef ≤ s.cfg.halfMax

/-- `BIT_MIN <= d <= BIT_MAX`. -/
def inBitWindow (s : State) : Bool := s.cfg.bitMin ≤ s.sinceRef && s.sinceRef ≤ s.cfg.bitMax

/-- An edge in a READY slave (42_receiver.md R203). -/
def edgeReadySlave (s : State) (l : Level) : State :=
  match l with
  | .active => ((s.setRegs ((s.regs.startBit s.now).clearReception .active)).trustTime).answer Out.default
  | .idle => s.ignore

/-- An edge in RESPONSE_WAITING (R204 to R206). -/
def edgeWaiting (s : State) (l : Level) : State :=
  if s.cfg.respTimeout < s.sinceRef then s.ignore
  else
    match l with
    | .active => (s.setRegs (s.regs.startBit s.now)).answer Out.default
    | .idle => s.fault .polarity

/-- An edge in RESPONSE_START_BIT (R207, R208). -/
def edgeStartBit (s : State) (l : Level) : State :=
  if s.inHalfWindow then
    match l with
    | .idle => (s.setRegs (s.regs.beginData s.now)).answer Out.default
    | .active => s.fault .polarity
  else s.fault .timing

/-- The stop bit's mid-bit transition (R212). -/
def edgeStop (s : State) (l : Level) : State :=
  match l with
  | .idle => (s.setRegs (s.regs.acceptStop s.now)).answer Out.default
  | .active => s.fault .framing

/-- An edge in RESPONSE_RECEIVING: R209 to R213 in their order. -/
def edgeReceiving (s : State) (l : Level) : State :=
  if l = s.regs.lastLevel then s.fault .polarity
  else if s.regs.boundarySeen = false ∧ s.inHalfWindow then
    (s.setRegs (s.regs.acceptBoundary l)).answer Out.default
  else if s.inBitWindow ∧ s.regs.bitIndex < 32#6 then
    (s.setRegs (s.regs.acceptBit l s.now)).answer Out.default
  else if s.inBitWindow ∧ s.regs.bitIndex = 32#6 then s.edgeStop l
  else s.fault .timing

/-- An edge to level `l` on the state after the pre-step, by `status` and `role` (R201). -/
def onEdge (s : State) (l : Level) : State :=
  match s.regs.status, s.regs.role with
  | .ready, .master => s.ignore
  | .ready, .slave => s.edgeReadySlave l
  | .responseWaiting, _ => s.edgeWaiting l
  | .responseStartBit, _ => s.edgeStartBit l
  | .responseReceiving, _ => s.edgeReceiving l
  | .notInitialized, _ => s.ignore
  | .delay, _ => s.ignore
  | .requestSending, _ => s.ignore
  | .responseReady, _ => s.ignore
  | .responseInvalid, _ => s.ignore

end State

/-- EDGE (R200). -/
def execEdge (pin : Bit) (s : State) : Result := .next (s.preStep.onEdge (levelOfPin s.cfg pin))

end Sys2Proof.Machine
end

