-- ==== Sys2Proof/Machine/Session.lean ====
section
/-! DEFINITION. The session and query commands (41_transceiver_ops.md R151 to R156). -/

namespace Sys2Proof.Machine

namespace State

/-- BEGIN on the state after the pre-step (41_transceiver_ops.md R151). -/
def openSession (s : State) (role : Role) : State :=
  if s.regs.status = .notInitialized then
    ((s.setRegs ((s.regs.openSession role s.now).clearReception .idle)).trustTime).answer Out.default
  else s.reject

/-- END on the state after the pre-step (R152). -/
def closeSession (s : State) : State := (s.setRegs (s.regs.setStatus .notInitialized)).answer Out.default

end State

/-- BEGIN (41_transceiver_ops.md R151). -/
def execBegin (role : Bit) (s : State) : Result := .next (s.preStep.openSession (roleOf role))

/-- END (R152): accepted in every state; an exchange in progress is abandoned without a report. -/
def execEnd (s : State) : Result := .next s.preStep.closeSession

/-- IS_READY (R153): it reads the state after the pre-step. -/
def execIsReady (s : State) : Result :=
  .next (s.preStep.answer (Out.bool (s.preStep.regs.status = .ready)))

/-- GET_STATUS (R154): it reads the state after the pre-step. -/
def execGetStatus (s : State) : Result :=
  .next (s.preStep.answer (Out.value (s.preStep.regs.status.code.zeroExtend 32)))

/-- GET_LAST_RESPONSE (R155). -/
def execGetLastResponse (s : State) : Result :=
  .next (s.preStep.answer (Out.value s.preStep.regs.lastResponse))

/-- GET_LAST_RESPONSE_STATUS (R156). -/
def execGetLastResponseStatus (s : State) : Result :=
  .next (s.preStep.answer (Out.value (s.preStep.regs.lastStatus.code.zeroExtend 32)))

end Sys2Proof.Machine
end

