-- ==== Sys2Proof/Machine/Line.lean ====
section
/-! DEFINITION. The waveform of a frame on the line (41_transceiver_ops.md R159, R160; 42_receiver.md R216). -/

namespace Sys2Proof.Machine

/-- `seq(f)`, the 34 bits on the wire (41_transceiver_ops.md R159): start bit, frame most significant bit first,
stop bit. -/
def wireBits (f : Word32) : List Bool :=
  true :: (List.range 32).map (fun j => f.getLsbD (31 - j)) ++ [true]

/-- `seq(f)[k]`; the rules name slots 0 to 33 only. -/
def wireBit (f : Word32) (k : Nat) : Bool := (wireBits f).getD k true

/-- The level of the first half of a slot holding bit `b` (R160). -/
def firstHalf (b : Bool) : Level := if b then .active else .idle

/-- The level of the second half of a slot holding bit `b` (R160). -/
def secondHalf (b : Bool) : Level := if b then .idle else .active

/-- `halfLevel(f, h)` (R160): a 1 is ACTIVE then IDLE, a 0 is IDLE then ACTIVE. -/
def halfLevel (f : Word32) (h : Nat) : Level :=
  if h % 2 = 0 then firstHalf (wireBit f (h / 2)) else secondHalf (wireBit f (h / 2))

/-- The transitions of the waveform of `f` that starts at `t0`: every half-bit interval that begins at another level
than the one before it, the line being IDLE before `t0` (R160 to R162). -/
def waveEdges (c : Params) (f : Word32) (t0 : Nat) : List (Nat × Level) :=
  (List.range 68).filterMap fun h =>
    if halfLevel f h = (if h = 0 then .idle else halfLevel f (h - 1)) then none
    else some (t0 + h * c.half, halfLevel f h)

/-- The edges of slot `k` (42_receiver.md R216): the leading edge before slot 0, a boundary edge before a slot whose
bit equals the one before it, and a mid-bit edge in every slot. -/
def slotEdges (c : Params) (f : Word32) (t0 : Nat) (k : Nat) : List (Nat × Level) :=
  (if k = 0 ∨ wireBit f k = wireBit f (k - 1) then [(t0 + k * c.tBit, firstHalf (wireBit f k))] else []) ++
    [(t0 + k * c.tBit + c.half, secondHalf (wireBit f k))]

/-- The edge pattern of a well-formed frame (42_receiver.md R216). -/
def frameEdges (c : Params) (f : Word32) (t0 : Nat) : List (Nat × Level) :=
  (List.range 34).flatMap (slotEdges c f t0)

/-- Edges as arrivals on the edge port, each carrying the pin level of its logical level (42_receiver.md R217). -/
def edgeArrivals (c : Params) (es : List (Nat × Level)) : List Arrival :=
  es.map fun e => .edge e.1 (pinOfLevel c e.2)

end Sys2Proof.Machine
end

