-- ==== Sys2Proof/Machine/Transmit.lean ====
section
/-! DEFINITION. The send commands and the transmit sequencer (41_transceiver_ops.md R157 to R162). -/

namespace Sys2Proof.Machine

namespace State

/-- SEND_REQUEST_ASYNC on the state after the pre-step (41_transceiver_ops.md R157). -/
def sendRequest (s : State) (f : Word32) : State :=
  if s.regs.status = .ready ∧ s.regs.role = .master then
    ((s.setRegs ((s.regs.startSending .request f s.now).clearReception .idle)).trustTime).answer Out.default
  else s.reject

/-- SEND_RESPONSE on the state after the pre-step (R158): the reception registers are untouched. -/
def sendResponse (s : State) (f : Word32) : State :=
  if s.regs.role = .slave ∧ (s.regs.status = .ready ∨ s.regs.status = .delay) then
    ((s.setRegs (s.regs.startSending .response f s.now)).trustTime).answer Out.default
  else s.reject

end State

/-- SEND_REQUEST_ASYNC (R157): the frame is sent as given. -/
def execSendRequestAsync (frame : Word32) (s : State) : Result := .next (s.preStep.sendRequest frame)

/-- SEND_RESPONSE (R158). -/
def execSendResponse (frame : Word32) (s : State) : Result := .next (s.preStep.sendResponse frame)

/-! ## The transmit sequencer -/

/-- `txLevel(R, t)`, the output line level at any time (R161): the state is the one after the last event at or
before `t`. -/
def State.txLevel (s : State) (t : Nat) : Level :=
  if s.regs.status = .requestSending ∧ s.timeSince t s.regs.txStart < 34 * s.cfg.tBit then
    halfLevel s.regs.txFrame (s.timeSince t s.regs.txStart / s.cfg.half)
  else .idle

/-- The physical output level: IDLE is high, ACTIVE is low (00_scope.md R17). -/
def State.outputPin (s : State) (t : Nat) : Bit := (s.txLevel t).code

end Sys2Proof.Machine
end

