-- ==== Sys2Proof/Machine/Dispatch.lean ====
section
/-! DEFINITION. The meaning of each command (30_encoding.md R86, rule column). -/

namespace Sys2Proof.Machine

/-- One event's command, executed on the state `State.accept` leaves. -/
def exec (i : Instr) (s : State) : Host.Outcome State Fault Refusal :=
  match i with
  | .beginSession role => Sys2Proof.Machine.execBegin role s
  | .endSession => Sys2Proof.Machine.execEnd s
  | .isReady => Sys2Proof.Machine.execIsReady s
  | .sendRequestAsync frame => Sys2Proof.Machine.execSendRequestAsync frame s
  | .sendResponse frame => Sys2Proof.Machine.execSendResponse frame s
  | .process => Sys2Proof.Machine.execProcess s
  | .edge pin => Sys2Proof.Machine.execEdge pin s
  | .getLastResponse => Sys2Proof.Machine.execGetLastResponse s
  | .getLastResponseStatus => Sys2Proof.Machine.execGetLastResponseStatus s
  | .getStatus => Sys2Proof.Machine.execGetStatus s
  | .buildRequest type id value => Sys2Proof.Machine.execBuildRequest type id value s
  | .buildResponse type id value => Sys2Proof.Machine.execBuildResponse type id value s
  | .parity frame => Sys2Proof.Machine.execParity frame s
  | .getMessageType frame => Sys2Proof.Machine.execGetMessageType frame s
  | .getDataId frame => Sys2Proof.Machine.execGetDataId frame s
  | .isValidRequest frame => Sys2Proof.Machine.execIsValidRequest frame s
  | .isValidResponse frame => Sys2Proof.Machine.execIsValidResponse frame s
  | .getUint frame => Sys2Proof.Machine.execGetUint frame s
  | .getFloat frame => Sys2Proof.Machine.execGetFloat frame s
  | .temperatureToData q => Sys2Proof.Machine.execTemperatureToData q s

end Sys2Proof.Machine
end

