-- ==== Sys2Proof/WellFormed.lean ====
section
/-! DEFINITION. Which commands their own rule accepts (40_codec.md R113, R114), and which parameter sets are legal
(00_scope.md R9). Operand widths are checked by the types of Syntax.lean. -/

namespace Sys2Proof

/-- A command no rule refuses as an instruction: the type of a BUILD is in its direction's set (40_codec.md R113,
R114). An ill-formed BUILD still has a word and decodes (30_encoding.md R91); running it is a command error. -/
def Instr.wellFormed : Instr → Bool
  | .beginSession _ => true
  | .endSession => true
  | .isReady => true
  | .sendRequestAsync _ => true
  | .sendResponse _ => true
  | .process => true
  | .edge _ => true
  | .getLastResponse => true
  | .getLastResponseStatus => true
  | .getStatus => true
  | .buildRequest type _ _ => Machine.isMasterType type
  | .buildResponse type _ _ => Machine.isSlaveType type
  | .parity _ => true
  | .getMessageType _ => true
  | .getDataId _ => true
  | .isValidRequest _ => true
  | .isValidResponse _ => true
  | .getUint _ => true
  | .getFloat _ => true
  | .temperatureToData _ => true

/-- The constraints of 00_scope.md R9, in its order (`RX_IDLE_PIN` is one bit by its type). -/
structure Params.Legal (c : Params) : Prop where
  tBit_even : c.tBit % 2 = 0
  tBit_pos : 0 < c.tBit
  halfMin_pos : 0 < c.halfMin
  halfMin_le : c.halfMin ≤ c.half
  half_le : c.half ≤ c.halfMax
  windows_disjoint : c.halfMax < c.bitMin
  bitMin_le : c.bitMin ≤ c.tBit
  tBit_le : c.tBit ≤ c.bitMax
  frame_fits : 34 * c.tBit < 2 ^ (c.tsW - 1)
  timeout_fits : c.respTimeout < 2 ^ (c.tsW - 1)
  gap_fits : c.delayGap < 2 ^ (c.tsW - 1)

/-- `Params.Legal` as a test `step` can run. -/
def Params.legal (c : Params) : Bool :=
  c.tBit % 2 = 0 && 0 < c.tBit && 0 < c.halfMin && c.halfMin ≤ c.half && c.half ≤ c.halfMax &&
    c.halfMax < c.bitMin && c.bitMin ≤ c.tBit && c.tBit ≤ c.bitMax &&
    34 * c.tBit < 2 ^ (c.tsW - 1) && c.respTimeout < 2 ^ (c.tsW - 1) && c.delayGap < 2 ^ (c.tsW - 1)

end Sys2Proof
end

