-- ==== Sys2Proof/Machine/Step.lean ====
section
/-! DEFINITION. One step: the block takes the next presented event (00_scope.md R12). -/

namespace Sys2Proof.Machine

/-- `step(R, e)` of 00_scope.md R12 on the next presented event: a word that is no command is a command error
(30_encoding.md R89, R90), every other word runs its command. With nothing presented the block takes no step and the
state stays (log entry 2). An illegal parameter set is refused (00_scope.md R9; log entry 6). -/
def step (s : State) : Host.Outcome State Fault Refusal :=
  if s.cfg.legal then
    match s.fetch with
    | .nothing => .next s
    | .reset after => .next after
    | .event w at_ =>
      match decode w with
      | .ok i => exec i at_
      | .error _ => .next at_.cmdError
  else .refused .illegalParameters

/-- The table word `w` of `nbits` bits presented on the command port as the very next event, at the last event's
time (log entries 2 and 12). -/
def State.withFetchWord (s : State) (nbits w : Nat) : State :=
  { s with arrivals := .command s.now (commandWordOf nbits w) :: s.arrivals }

end Sys2Proof.Machine
end

