-- ==== Sys2Proof/Machine/SendRequest.lean ====
section
/-! DEFINITION. The pseudo-instruction SEND_REQUEST (30_encoding.md R96): the host's polling loop over the block's
steps, with the edges the line delivers while it polls (log entry 13). -/

namespace Sys2Proof.Machine

/-- What happens next while the loop runs: the host polls, or the line has a transition. -/
inductive Tick where
  | poll (now : Nat)
  | edge (now : Nat) (pin : Bit)
deriving DecidableEq, Repr

/-- The event of a tick. -/
def Tick.arrival : Tick → Arrival
  | .poll t => .command t (encode .process)
  | .edge t pin => .edge t pin

/-- The state with one event presented. -/
def State.present (s : State) (a : Arrival) : State := { s with arrivals := [a] }

/-- The loop of R96: poll until a report, then its value if it is SUCCESS and 0 otherwise; none where the ticks run out
before a report. -/
def pollLoop : List Tick → State → Option Word32
  | [], _ => none
  | e :: es, s =>
    match step (s.present e.arrival) with
    | .next t =>
      if t.out.done then some (if t.out.rstat = .success then t.out.res else 0#32) else pollLoop es t
    | .fault _ => none
    | .refused _ => none

/-- SEND_REQUEST `f` at `t0` (R96): 0 at once if the request is not accepted. -/
def sendRequestSync (f : Word32) (t0 : Nat) (es : List Tick) (s : State) : Option Word32 :=
  match step (s.present (.command t0 (encode (.sendRequestAsync f)))) with
  | .next t => if t.out.ok then pollLoop es t else some 0#32
  | .fault _ => none
  | .refused _ => none

end Sys2Proof.Machine
end

