-- ==== Sys2Proof/Safety.lean ====
section
/-! DEFINITION. What the claims are stated in: runs, the invariant of every run, and the clock of a master's
exchange. -/

namespace Sys2Proof.Machine

/-- `n` steps, stopping where a step gives no next state. -/
def stepN : Nat → State → Result
  | 0, s => .next s
  | n + 1, s =>
    match step s with
    | .next t => stepN n t
    | .fault r => .fault r
    | .refused r => .refused r

/-- The last bit the receiver accepted, the start bit's 1 while there is none (10_state.md R34, R36). -/
def Regs.lastBit (r : Regs) : Bool := r.bitIndex = 0#6 || r.rxReg.getLsbD 0

/-- The reception registers are as BEGIN, SEND_REQUEST_ASYNC and a slave's start edge clear them. -/
def Regs.Clean (r : Regs) : Prop := r.rxReg = 0#32 ∧ r.bitIndex = 0#6 ∧ r.boundarySeen = false

/-- What the registers satisfy in every state a run reaches; `w` is `TS_W`. -/
structure Regs.Inv (w : Nat) (r : Regs) : Prop where
  /-- 10_state.md R37. -/
  tRef_lt : r.tRef < 2 ^ w
  /-- 10_state.md R41. -/
  txStart_lt : r.txStart < 2 ^ w
  /-- 10_state.md R34. -/
  bitIndex_le : r.bitIndex ≤ 32#6
  /-- 10_state.md R33, R34: nothing but the data bits received so far is in `rxReg`. -/
  receiving_fits : r.status = .responseReceiving → r.rxReg.toNat < 2 ^ r.bitIndex.toNat
  /-- 42_receiver.md R209 to R211, R214: the level after the last accepted edge is the last bit's second half, or its
  opposite once a boundary edge has passed. -/
  receiving_level : r.status = .responseReceiving →
    (r.lastLevel = .idle ↔ r.lastBit = !r.boundarySeen)
  /-- 41_transceiver_ops.md R157, 42_receiver.md R205. -/
  waiting_clean : r.status = .responseWaiting → r.Clean
  /-- 42_receiver.md R203, R205. -/
  startBit_clean : r.status = .responseStartBit → r.Clean ∧ r.lastLevel = .active
  /-- 41_transceiver_ops.md R157: a request goes out with the reception registers cleared. -/
  sending_clean : r.status = .requestSending → r.txKind = .request → r.Clean
  /-- 41_transceiver_ops.md R157, R158. -/
  sending_role : r.status = .requestSending → (r.txKind = .request ↔ r.role = .master)
  /-- 60_exceptions.md R245: a slave has no RESPONSE_WAITING. -/
  waiting_master : r.status = .responseWaiting → r.role = .master
  /-- 42_receiver.md R212. -/
  complete : r.status = .responseReady → r.bitIndex = 32#6 ∧ r.boundarySeen = false ∧ r.lastLevel = .idle
  /-- 41_transceiver_ops.md R151, R155, R166. -/
  no_value : r.lastStatus = .none ∨ r.lastStatus = .timeout → r.lastResponse = 0#32
  /-- 60_exceptions.md R245. -/
  timeout_master : r.lastStatus = .timeout → r.role = .master
  /-- 41_transceiver_ops.md R166 to R168: DELAY is entered by a report only. -/
  delay_reported : r.status = .delay → r.lastStatus ≠ .none

/-- The invariant of every run: the registers', and a timestamp that fits its width. -/
structure State.Inv (s : State) : Prop where
  regs : s.regs.Inv s.cfg.tsW
  now_lt : s.now < 2 ^ s.cfg.tsW

/-- How long after the request's start the reference of a master's open exchange can lie (41_transceiver_ops.md R172,
step by step). -/
def Regs.latest (c : Params) (r : Regs) : Nat :=
  match r.status with
  | .responseWaiting => 34 * c.tBit
  | .responseStartBit => 34 * c.tBit + c.respTimeout
  | .responseReceiving => 34 * c.tBit + c.respTimeout + c.halfMax + r.bitIndex.toNat * c.bitMax
  | .notInitialized | .ready | .delay | .requestSending | .responseReady | .responseInvalid => 0

/-- The state is one of a master's exchange whose reference is measured from the request (41_transceiver_ops.md
R172). -/
def Regs.AwaitsReply (r : Regs) : Prop :=
  r.role = .master ∧
    (r.status = .responseWaiting ∨ r.status = .responseStartBit ∨ r.status = .responseReceiving)

/-- An event leaves the configuration, the events still to come and the model's counters as they were when it began. -/
structure State.SameSetting (s t : State) : Prop where
  cfg : t.cfg = s.cfg
  now : t.now = s.now
  arrivals : t.arrivals = s.arrivals
  freeIndex : t.freeIndex = s.freeIndex

/-- The command completes in a state of which `P` holds. -/
def Yields (i : Instr) (s : State) (P : State → Prop) : Prop := ∃ t, exec i s = .next t ∧ P t

/-- The commands of 40_codec.md. -/
def Codec : Instr → Prop
  | .buildRequest _ _ _ | .buildResponse _ _ _ | .parity _ | .getMessageType _ | .getDataId _ | .isValidRequest _
  | .isValidResponse _ | .getUint _ | .getFloat _ | .temperatureToData _ => True
  | .beginSession _ | .endSession | .isReady | .sendRequestAsync _ | .sendResponse _ | .process | .edge _
  | .getLastResponse | .getLastResponseStatus | .getStatus => False

/-- The query commands of 41_transceiver_ops.md R153 to R156. -/
def Query : Instr → Prop
  | .isReady | .getStatus | .getLastResponse | .getLastResponseStatus => True
  | .buildRequest _ _ _ | .buildResponse _ _ _ | .parity _ | .getMessageType _ | .getDataId _ | .isValidRequest _
  | .isValidResponse _ | .getUint _ | .getFloat _ | .temperatureToData _
  | .beginSession _ | .endSession | .sendRequestAsync _ | .sendResponse _ | .process | .edge _ => False

/-- Edges, the `i`-th of them displaced by `δ i` microseconds (42_receiver.md R217). -/
def displace (δ : Nat → Int) (es : List (Nat × Level)) : List (Nat × Level) :=
  es.zipIdx.map fun e => (((e.1.1 : Int) + δ e.2).toNat, e.1.2)

/-- The clock of a master's exchange. -/
structure State.ExchangeClock (s : State) : Prop where
  /-- A reply is awaited from the very end of the transmission on (41_transceiver_ops.md R150; 10_state.md R37). -/
  waiting_since : s.regs.status = .responseWaiting →
    s.regs.tRef = (s.regs.txStart + 34 * s.cfg.tBit) % 2 ^ s.cfg.tsW
  /-- While the host keeps the timestamp discipline, the reference lies no later after the request's start than
  41_transceiver_ops.md R172 counts. -/
  reference_le : s.undisciplined = false → s.regs.AwaitsReply →
    elapsed s.cfg.tsW s.regs.tRef s.regs.txStart ≤ s.regs.latest s.cfg

/-! ## The SEND_REQUEST loop -/

/-- The time of a tick. -/
def Tick.time : Tick → Nat
  | .poll now => now
  | .edge now _ => now

/-- The tick is a transition of the line. -/
def Tick.isEdge : Tick → Bool
  | .poll _ => false
  | .edge _ _ => true

/-- The transitions of a line that carries these edges. -/
def lineTicks (c : Params) (es : List (Nat × Level)) : List Tick := es.map fun e => .edge e.1 (pinOfLevel c e.2)

/-- The state after ticks that make no report; none where a step stops or reports. -/
def quietRun : List Tick → State → Option State
  | [], s => some s
  | e :: es, s =>
    match step (s.present e.arrival) with
    | .next t => if t.out.done then none else quietRun es t
    | .fault _ => none
    | .refused _ => none

end Sys2Proof.Machine
end

