-- ==== Sys2Proof/Certificates/Slice0/Obligations.lean ====
section
/-! DEFINITION. The statements for the provers. `s.preStep` is the state the command's own pseudocode runs on
(41_transceiver_ops.md R150), what it can be is `Obligations.PreStepEffect`; `sinceRef` and `sinceStart` are the elapsed
times of 00_scope.md R14 while the host keeps the timestamp discipline, and free values once it has broken it (log
entry 4); `s.SameSetting t` says that the configuration and the model's own counters stay. -/

open Sys2Proof Sys2Proof.Machine

/-! ## Encoding and steps -/

/-- The decoder gives back every command from the word the encoder writes for it (30_encoding.md R84 to R87, R91). -/
def Obligations.DecodeOfEncode : Prop := ∀ i : Instr, decode (encode i) = .ok i

/-- A word has one meaning: the encoder writes a decoded command as that very word (30_encoding.md R91). -/
def Obligations.EncodeOfDecode : Prop := ∀ (w : CommandWord) (i : Instr), decode w = .ok i → encode i = w

/-- A word is a row's command exactly when `w & mask = match`, the columns of spec/opcode_table.json (30_encoding.md
R91). -/
def Obligations.DecodeIsTableMatch : Prop :=
  ∀ (w : CommandWord) (op : Opcode),
    (∃ i, decode w = .ok i ∧ i.opcode = op) ↔ w &&& op.tableMask = op.tableMatch

/-- 30_encoding.md R89: the reserved opcodes are 0x00, 0x0B to 0x0F and 0x1A to 0xFF, and a word with one changes no
register and answers `cmd_err = 1`. -/
def Obligations.ReservedOpcodeIsCommandError : Prop :=
  ∀ w : CommandWord,
    (decode w = .error .reservedOpcode ↔
      opcodeByte w = 0x00#8 ∨ (0x0B#8 ≤ opcodeByte w ∧ opcodeByte w ≤ 0x0F#8) ∨ 0x1A#8 ≤ opcodeByte w) ∧
    (decode w = .error .reservedOpcode → ∀ (s : State) (now : Nat) (rest : List Arrival),
      s.cfg.Legal → s.arrivals = .command now w :: rest →
      ∃ t, step s = .next t ∧ t.regs = s.regs ∧ t.cfg = s.cfg ∧ t.arrivals = rest ∧
        t.out = { res := 0#32, ok := false, cmdErr := true, done := false, rstat := .none })

/-- 30_encoding.md R90: an assigned opcode with a bit set that its format reserves is a command error, which changes no
register. -/
def Obligations.ReservedBitIsCommandError : Prop :=
  ∀ (op : Opcode) (w : CommandWord), opcodeByte w = op.code →
    (decode w = .error .reservedBits ↔
      w.extractLsb' 32 24 ≠ 0#24 ∨
        match op.format with
        | .N => w.extractLsb' 0 32 ≠ 0#32
        | .B => w.extractLsb' 31 1 ≠ 0#1 ∨ w.extractLsb' 24 4 ≠ 0#4
        | .L => w.extractLsb' 1 31 ≠ 0#31
        | .F => False
        | .T => False) ∧
    (decode w = .error .reservedBits → ∀ (s : State) (now : Nat) (rest : List Arrival),
      s.cfg.Legal → s.arrivals = .command now w :: rest →
      ∃ t, step s = .next t ∧ t.regs = s.regs ∧ t.cfg = s.cfg ∧ t.arrivals = rest ∧
        t.out = { res := 0#32, ok := false, cmdErr := true, done := false, rstat := .none })

/-- Words written out from 30_encoding.md R85 and R86, one of each format, decode to the commands they stand for. -/
def Obligations.WrittenWordsDecode : Prop :=
  decode 0x0100000000000001#64 = .ok (.beginSession 1#1) ∧
  decode 0x0600000000000000#64 = .ok .process ∧
  decode 0x0500000040000001#64 = .ok (.sendResponse 0x40000001#32) ∧
  decode 0x1000000010011580#64 = .ok (.buildRequest 1#3 0x01#8 0x1580#16) ∧
  decode 0x1900000000158000#64 = .ok (.temperatureToData 0x00158000#32)

/-- A step takes the next arrival: a command word runs its command, an edge runs EDGE, and of an edge and a command
presented in the same instant the edge runs first and the command stays next (00_scope.md R12, 20_memory.md R67, R68).
Each runs on the state `accept` leaves: the event's time is `now`, and the registers are as they were; what it does to
the discipline's flag is `Obligations.TimestampDiscipline`. The model's own reading, not the spec's: that a step with
nothing presented leaves the state (log entry 2), that the same instant is one arrival (8), that an EDGE word on the
command port runs EDGE too (9), and that the time is reduced modulo `2 ^ TS_W` (10). -/
def Obligations.StepRunsArrival : Prop :=
  ∀ s : State, s.cfg.Legal →
    (s.arrivals = [] → step s = .next s) ∧
    (∀ now w rest i, s.arrivals = .command now w :: rest → decode w = .ok i →
      step s = exec i (s.accept now rest)) ∧
    (∀ now pin rest, s.arrivals = .edge now pin :: rest → step s = exec (.edge pin) (s.accept now rest)) ∧
    (∀ now pin w rest, s.arrivals = .both now pin w :: rest →
      step s = exec (.edge pin) (s.accept now (.command now w :: rest))) ∧
    (∀ now rest, (s.accept now rest).regs = s.regs ∧ (s.accept now rest).cfg = s.cfg ∧
      (s.accept now rest).arrivals = rest ∧ (s.accept now rest).now = now % 2 ^ s.cfg.tsW)

/-- When the host counts as having broken the timestamp discipline, and until when (70_reset_and_hazards.md R276, R281;
93_implementation_defined.md I21). This is the model's reading (log entry 4): an event sets the flag if an exchange is
open and `2^(TS_W-1)` microseconds or more have passed, modulo `2^TS_W`, since the last event or since the timestamp the
state measures from; a report, an accepted BEGIN or send, a slave's start edge and a reset clear it, and nothing else
does. While it is clear an elapsed time is R14's; while it is set it is the free value of this event. -/
def Obligations.TimestampDiscipline : Prop :=
  (∀ (s : State) (now : Nat) (rest : List Arrival),
    let half := 2 ^ (s.cfg.tsW - 1)
    let isOpen : Prop := s.regs.status ≠ .notInitialized ∧ s.regs.status ≠ .ready ∧ s.regs.status ≠ .delay
    let reference := if s.regs.status = .requestSending then s.regs.txStart else s.regs.tRef
    (s.accept now rest).freeIndex = s.freeIndex + 1 ∧
    ((s.accept now rest).undisciplined = true ↔ s.undisciplined = true ∨
      isOpen ∧ (half ≤ elapsed s.cfg.tsW now s.now ∨ half ≤ elapsed s.cfg.tsW now reference))) ∧
  (∀ (i : Instr) (s t : State), exec i s = .next t →
    let opens : Prop :=
      (t.out.ok = true ∧
        ((∃ b, i = .beginSession b) ∨ (∃ f, i = .sendRequestAsync f) ∨ ∃ f, i = .sendResponse f)) ∨
      (s.preStep.regs.status = .ready ∧ s.regs.role = .slave ∧ ∃ pin, i = .edge pin ∧ pin ≠ s.cfg.rxIdlePin)
    (t.undisciplined = true ↔ s.undisciplined = true ∧ ¬ t.out.done = true ∧ ¬ opens)) ∧
  (∀ (s : State) (rest : List Arrival), s.cfg.Legal → s.arrivals = .reset :: rest →
    ∃ t, step s = .next t ∧ t.undisciplined = false) ∧
  ∀ (s : State) (t t0 : Nat),
    (s.undisciplined = false → s.timeSince t t0 = elapsed s.cfg.tsW t t0) ∧
    (s.undisciplined = true → s.timeSince t t0 = Config.freeElapsed s.freeIndex t t0 % 2 ^ s.cfg.tsW)

/-- A block with legal parameters never stops: no error is fatal (60_exceptions.md R240). -/
def Obligations.LegalStepAlwaysNext : Prop := ∀ s : State, s.cfg.Legal → ∃ t, step s = .next t ∧ t.cfg = s.cfg

/-- 00_scope.md R9: a configuration that violates a constraint is refused, and no other is. -/
def Obligations.IllegalParametersRefused : Prop :=
  ∀ s : State, step s = .refused .illegalParameters ↔
    ¬ ((s.cfg.tBit % 2 = 0 ∧ 0 < s.cfg.tBit) ∧
      (0 < s.cfg.halfMin ∧ s.cfg.halfMin ≤ s.cfg.tBit / 2 ∧ s.cfg.tBit / 2 ≤ s.cfg.halfMax ∧
        s.cfg.halfMax < s.cfg.bitMin ∧ s.cfg.bitMin ≤ s.cfg.tBit ∧ s.cfg.tBit ≤ s.cfg.bitMax) ∧
      (34 * s.cfg.tBit < 2 ^ (s.cfg.tsW - 1) ∧ s.cfg.respTimeout < 2 ^ (s.cfg.tsW - 1) ∧
        s.cfg.delayGap < 2 ^ (s.cfg.tsW - 1)) ∧
      (s.cfg.rxIdlePin = 0#1 ∨ s.cfg.rxIdlePin = 1#1))

/-! ## Reset and invariants -/

/-- 10_state.md R51: the value of every register after a reset, at power-on and on the reset input, and the output
line. -/
def Obligations.ResetRegisters : Prop :=
  let values : Regs :=
    { status := .notInitialized, role := .master, rxReg := 0#32, bitIndex := 0#6, boundarySeen := false,
      lastLevel := .idle, tRef := 0, lastResponse := 0#32, lastStatus := .none, txFrame := 0#32, txStart := 0,
      txKind := .request }
  State.reset.regs = values ∧ (∀ x, State.reset.outputPin x = 1#1) ∧
  ∀ (s : State) (rest : List Arrival), s.cfg.Legal → s.arrivals = .reset :: rest →
    ∃ t, step s = .next t ∧ t.regs = values ∧ t.out.done = false ∧ t.cfg = s.cfg ∧ t.arrivals = rest ∧
      ∀ x, t.outputPin x = 1#1

/-- The invariant holds right after reset, and its parameters are legal. -/
def Obligations.ResetMeetsInvariant : Prop := State.reset.Inv ∧ State.reset.cfg.Legal

/-- Every step keeps the invariant: timestamps fit their width, the receiver's registers agree with the bits received,
a slave never awaits a response, and DELAY is entered by a report only. -/
def Obligations.StepKeepsInvariant : Prop := ∀ s t : State, s.Inv → step s = .next t → t.Inv

/-- The clock of a master's exchange is kept by every step: in RESPONSE_WAITING the reference is the end of the
transmission, `(txStart + 34 * T_BIT) mod 2^TS_W`, whatever the host does (41_transceiver_ops.md R150; 10_state.md R37),
and each deadline of R172 is measured from a reference no later after the request's start than the rule counts. -/
def Obligations.StepKeepsExchangeClock : Prop :=
  ∀ s t : State, s.ExchangeClock → step s = .next t → t.ExchangeClock

/-! ## The codec -/

/-- 40_codec.md R112: the parity generator sets bit 31 exactly when the content's parity is odd, and its result always
has even parity. -/
def Obligations.ParityGenerator : Prop :=
  ∀ c : Word32, c.getLsbD 31 = false →
    withParity c = (if oddParity c then c ||| 1#32 <<< 31 else c) ∧ oddParity (withParity c) = false

/-- PARITY answers whether the number of set bits, the parity bit counted, is odd (40_codec.md R110, R111). -/
def Obligations.ParityCommand : Prop :=
  ∀ (frame : Word32) (s : State), ∃ t, exec (.parity frame) s = .next t ∧
    (t.out.ok = true ↔ Odd (Finset.univ.filter fun i : Fin 32 => frame.getLsbD i = true).card) ∧
    t.out.res = (if t.out.ok then 1#32 else 0#32) ∧
    t.out.cmdErr = false ∧ t.out.done = false ∧ t.out.rstat = .none ∧
    t.regs = s.preStep.regs ∧ s.SameSetting t ∧ t.undisciplined = s.undisciplined

/-- BUILD_REQUEST with a master type and BUILD_RESPONSE with a slave type answer the frame of their operands: the type,
zero spare bits, the id and the value in their places, and even parity (40_codec.md R113, R114). -/
def Obligations.BuildCommands : Prop :=
  ∀ (type : BitVec 3) (id : BitVec 8) (value : BitVec 16) (s : State),
    let builds (i : Instr) : Prop := ∃ t, exec i s = .next t ∧
      t.out.res.extractLsb' 28 3 = type ∧ t.out.res.extractLsb' 24 4 = 0#4 ∧ t.out.res.extractLsb' 16 8 = id ∧
      t.out.res.extractLsb' 0 16 = value ∧ oddParity t.out.res = false ∧
      t.out = { Out.default with res := t.out.res } ∧
      t.regs = s.preStep.regs ∧ s.SameSetting t ∧ t.undisciplined = s.undisciplined
    ((type = 0#3 ∨ type = 1#3 ∨ type = 2#3) → builds (.buildRequest type id value)) ∧
    ((type = 4#3 ∨ type = 5#3 ∨ type = 6#3 ∨ type = 7#3) → builds (.buildResponse type id value))

/-- A BUILD whose type is outside its direction's set is a command error, which discards the pre-step too
(40_codec.md R113, R114; 00_scope.md R16). -/
def Obligations.BuildRefusesWrongType : Prop :=
  ∀ (type : BitVec 3) (id : BitVec 8) (value : BitVec 16) (s : State),
    let refused (i : Instr) : Prop := ∃ t, exec i s = .next t ∧
      t.out = { res := 0#32, ok := false, cmdErr := true, done := false, rstat := .none } ∧
      t.regs = s.regs ∧ s.SameSetting t ∧ t.undisciplined = s.undisciplined
    ((type = 3#3 ∨ type = 4#3 ∨ type = 5#3 ∨ type = 6#3 ∨ type = 7#3) → refused (.buildRequest type id value)) ∧
    ((type = 0#3 ∨ type = 1#3 ∨ type = 2#3 ∨ type = 3#3) → refused (.buildResponse type id value))

/-- GET_MESSAGE_TYPE, GET_DATA_ID and GET_UINT answer the field, zero-extended (40_codec.md R115, R116, R119). -/
def Obligations.FieldCommands : Prop :=
  ∀ (frame : Word32) (s : State),
    let answers (i : Instr) (v : Nat) : Prop := ∃ t, exec i s = .next t ∧
      t.out.res.toNat = v ∧ t.out = { Out.default with res := t.out.res } ∧
      t.regs = s.preStep.regs ∧ s.SameSetting t ∧ t.undisciplined = s.undisciplined
    answers (.getMessageType frame) (frame.toNat / 2 ^ 28 % 2 ^ 3) ∧
    answers (.getDataId frame) (frame.toNat / 2 ^ 16 % 2 ^ 8) ∧
    answers (.getUint frame) (frame.toNat % 2 ^ 16)

/-- IS_VALID_REQUEST and IS_VALID_RESPONSE answer even parity and a type of the direction's set, and nothing else
(40_codec.md R117, R118). -/
def Obligations.ValidatorCommands : Prop :=
  ∀ (frame : Word32) (s : State),
    let answers (i : Instr) (p : Prop) : Prop := ∃ t, exec i s = .next t ∧
      (t.out.ok = true ↔ p) ∧ t.out.res = (if t.out.ok then 1#32 else 0#32) ∧
      t.out.cmdErr = false ∧ t.out.done = false ∧ t.out.rstat = .none ∧
      t.regs = s.preStep.regs ∧ s.SameSetting t ∧ t.undisciplined = s.undisciplined
    let even : Prop := Even (Finset.univ.filter fun i : Fin 32 => frame.getLsbD i = true).card
    let type := frame.toNat / 2 ^ 28 % 2 ^ 3
    answers (.isValidRequest frame) (even ∧ type < 3) ∧ answers (.isValidResponse frame) (even ∧ 4 ≤ type)

/-- GET_FLOAT answers exactly `sext(frame[15:0]) * 256`, the f8.8 value in Q16.16 (40_codec.md R120). -/
def Obligations.GetFloatIsExact : Prop :=
  ∀ (frame : Word32) (s : State), ∃ t, exec (.getFloat frame) s = .next t ∧
    t.out.res.toInt = (frame.extractLsb' 0 16).toInt * 256 ∧ t.out = { Out.default with res := t.out.res } ∧
    t.regs = s.preStep.regs ∧ s.SameSetting t ∧ t.undisciplined = s.undisciplined

/-- TEMPERATURE_TO_DATA answers an integer `r` rounded from `sext(q) / 256` as `F88_ROUND` says, clamped or wrapped as
`F88_OVF` says, in 16 bits (40_codec.md R121 to R123). -/
def Obligations.TemperatureToDataRounds : Prop :=
  ∀ (q : Word32) (s : State), ∃ t, exec (.temperatureToData q) s = .next t ∧
    (∃ r : Int,
      (match s.cfg.f88Round with
        | .nearestAway => 2 * |256 * r - q.toInt| ≤ 256 ∧ (2 * |256 * r - q.toInt| = 256 → |q.toInt| < |256 * r|)
        | .nearestEven => 2 * |256 * r - q.toInt| ≤ 256 ∧ (2 * |256 * r - q.toInt| = 256 → Even r)
        | .truncate => |256 * r - q.toInt| < 256 ∧ |256 * r| ≤ |q.toInt|) ∧
      (t.out.res.toNat : Int) =
        (match s.cfg.f88Ovf with
          | .wrap => r
          | .saturate => min 32767 (max (-32768) r)) % 2 ^ 16) ∧
    t.out = { Out.default with res := t.out.res } ∧
    t.regs = s.preStep.regs ∧ s.SameSetting t ∧ t.undisciplined = s.undisciplined

/-- 40_codec.md R124: a built frame has even parity, the decoder reads back its operands, and the validator of its own
direction alone accepts it. -/
def Obligations.BuiltFramesDecode : Prop :=
  ∀ (type : BitVec 3) (id : BitVec 8) (value : BitVec 16) (s : State),
    let readsBack (f : Word32) : Prop :=
      Yields (.parity f) s (fun t => t.out.ok = false) ∧
      Yields (.getMessageType f) s (fun t => t.out.res = type.zeroExtend 32) ∧
      Yields (.getDataId f) s (fun t => t.out.res = id.zeroExtend 32) ∧
      Yields (.getUint f) s (fun t => t.out.res = value.zeroExtend 32)
    let accepted (i : Instr) : Prop := Yields i s fun t => t.out.ok = true ∧ t.out.res = 1#32
    let notAccepted (i : Instr) : Prop := Yields i s fun t => t.out.ok = false ∧ t.out.res = 0#32
    ((type = 0#3 ∨ type = 1#3 ∨ type = 2#3) → Yields (.buildRequest type id value) s fun t =>
      readsBack t.out.res ∧ accepted (.isValidRequest t.out.res) ∧ notAccepted (.isValidResponse t.out.res)) ∧
    ((type = 4#3 ∨ type = 5#3 ∨ type = 6#3 ∨ type = 7#3) → Yields (.buildResponse type id value) s fun t =>
      readsBack t.out.res ∧ accepted (.isValidResponse t.out.res) ∧ notAccepted (.isValidRequest t.out.res))

/-- 40_codec.md R125: flipping one bit of a frame of valid parity gives odd parity; more generally parity detects every
odd number of bit errors and no even number. -/
def Obligations.ParityDetectsOddErrors : Prop :=
  (∀ (f : Word32) (i : Fin 32), oddParity f = false → oddParity (f ^^^ 1#32 <<< i.val) = true) ∧
  ∀ f e : Word32, oddParity f = false →
    (oddParity (f ^^^ e) = true ↔ Odd (Finset.univ.filter fun i : Fin 32 => e.getLsbD i = true).card)

/-- 40_codec.md R126: an f8.8 value survives GET_FLOAT and TEMPERATURE_TO_DATA under every mode, and a temperature in
range survives the other way within half a unit, or within one under TRUNCATE. -/
def Obligations.FixedPointRoundTrip : Prop :=
  ∀ s : State,
    (∀ (frame : Word32) (t u : State), exec (.getFloat frame) s = .next t →
      exec (.temperatureToData t.out.res) s = .next u → u.out.res = (frame.extractLsb' 0 16).zeroExtend 32) ∧
    (∀ (q : Word32) (t u : State), -128 * 65536 ≤ q.toInt → q.toInt ≤ 128 * 65536 - 256 →
      exec (.temperatureToData q) s = .next t → exec (.getFloat t.out.res) s = .next u →
      match s.cfg.f88Round with
      | .nearestAway => 512 * |u.out.res.toInt - q.toInt| ≤ 65536
      | .nearestEven => 512 * |u.out.res.toInt - q.toInt| ≤ 65536
      | .truncate => 256 * |u.out.res.toInt - q.toInt| < 65536)

/-- The codec is pure: a codec command changes no register beyond the pre-step, and its outputs are the same in every
two states of one configuration (40_codec.md R131; 41_transceiver_ops.md R150). -/
def Obligations.CodecIsPure : Prop :=
  ∀ (i : Instr) (s t s' t' : State), Codec i → s'.cfg = s.cfg → exec i s = .next t → exec i s' = .next t' →
    t.out = t'.out ∧ (t.regs = s.regs ∨ t.regs = s.preStep.regs)

/-! ## The pre-step -/

/-- The pre-step ends a transmission whose 34 bit periods are over, at the time it ended, and does nothing else
(41_transceiver_ops.md R150). -/
def Obligations.PreStepEffect : Prop :=
  ∀ s : State,
    let finished : Prop := s.regs.status = .requestSending ∧ 34 * s.cfg.tBit ≤ s.sinceStart
    let tEnd : Nat := (s.regs.txStart + 34 * s.cfg.tBit) % 2 ^ s.cfg.tsW
    (s.undisciplined = false → s.sinceStart = elapsed s.cfg.tsW s.now s.regs.txStart) ∧
    (finished → s.regs.txKind = .request →
      s.preStep = { s with regs := { s.regs with status := .responseWaiting, tRef := tEnd } }) ∧
    (finished → s.regs.txKind = .response →
      s.preStep = { s with regs := { s.regs with status := .ready, tRef := tEnd } }) ∧
    (¬ finished → s.preStep = s)

/-- Every command that is no command error runs on the state the pre-step leaves, whatever its opcode
(41_transceiver_ops.md R150), and the pre-step's effect does not depend on when the event comes. -/
def Obligations.EveryCommandRunsPreStep : Prop :=
  (∀ (i : Instr) (s t : State), exec i s = .next t → t.out.cmdErr = false → exec i s.preStep = .next t) ∧
  ∀ (s : State) (a b : Nat), s.undisciplined = false →
    34 * s.cfg.tBit ≤ elapsed s.cfg.tsW a s.regs.txStart → 34 * s.cfg.tBit ≤ elapsed s.cfg.tsW b s.regs.txStart →
    ({ s with now := a } : State).preStep.regs = ({ s with now := b } : State).preStep.regs

/-! ## Session and queries -/

/-- BEGIN opens a session in NOT_INITIALIZED and is rejected in a running one (41_transceiver_ops.md R151). -/
def Obligations.BeginCommand : Prop :=
  ∀ (b : Bit) (s : State), ∃ t, exec (.beginSession b) s = .next t ∧ s.SameSetting t ∧
    (s.preStep.regs.status = .notInitialized →
      t.out = Out.default ∧ (∀ x, t.outputPin x = 1#1) ∧
      t.regs = { s.preStep.regs with
        status := .ready, role := if b = 0#1 then .master else .slave, rxReg := 0#32, bitIndex := 0#6,
        boundarySeen := false, lastLevel := .idle, tRef := s.now, lastResponse := 0#32, lastStatus := .none }) ∧
    (s.preStep.regs.status ≠ .notInitialized →
      t.out = { Out.default with ok := false } ∧ t.regs = s.preStep.regs)

/-- END is accepted in every state, writes only `status`, reports nothing, and the output line is IDLE from then on
(41_transceiver_ops.md R152). -/
def Obligations.EndCommand : Prop :=
  ∀ s : State, ∃ t, exec .endSession s = .next t ∧ s.SameSetting t ∧ t.out = Out.default ∧
    t.regs = { s.preStep.regs with status := .notInitialized } ∧ ∀ x, t.outputPin x = 1#1

/-- IS_READY, GET_STATUS, GET_LAST_RESPONSE and GET_LAST_RESPONSE_STATUS answer the state after the pre-step and write
no register of their own (41_transceiver_ops.md R153 to R156; the codes of 10_state.md R31, R39). -/
def Obligations.QueryCommands : Prop :=
  ∀ s : State,
    let answers (i : Instr) (o : Out) : Prop := ∃ t, exec i s = .next t ∧ t.out = o ∧
      t.regs = s.preStep.regs ∧ s.SameSetting t ∧ t.undisciplined = s.undisciplined
    let statusCode : Nat :=
      match s.preStep.regs.status with
      | .notInitialized => 0 | .ready => 1 | .delay => 2 | .requestSending => 3 | .responseWaiting => 4
      | .responseStartBit => 5 | .responseReceiving => 6 | .responseReady => 7 | .responseInvalid => 8
    let outcomeCode : Nat :=
      match s.regs.lastStatus with
      | .none => 0 | .success => 1 | .invalid => 2 | .timeout => 3
    (s.preStep.regs.status = .ready → answers .isReady { Out.default with ok := true, res := 1#32 }) ∧
    (s.preStep.regs.status ≠ .ready → answers .isReady { Out.default with ok := false, res := 0#32 }) ∧
    answers .getStatus { Out.default with res := BitVec.ofNat 32 statusCode } ∧
    answers .getLastResponse { Out.default with res := s.regs.lastResponse } ∧
    answers .getLastResponseStatus { Out.default with res := BitVec.ofNat 32 outcomeCode }

/-- The queries are idempotent: the same query again at the same time leaves the state and the result as they are
(20_memory.md R66). -/
def Obligations.QueriesAreIdempotent : Prop :=
  ∀ (i : Instr) (s t : State), Query i → exec i s = .next t → exec i t = .next t

/-! ## Sending -/

/-- SEND_REQUEST_ASYNC is accepted exactly in a master's READY; it holds the frame as given and clears the reception
registers; a rejected one changes nothing beyond the pre-step (41_transceiver_ops.md R157). -/
def Obligations.SendRequestAsyncCommand : Prop :=
  ∀ (frame : Word32) (s : State), ∃ t, exec (.sendRequestAsync frame) s = .next t ∧ s.SameSetting t ∧
    (s.preStep.regs.status = .ready ∧ s.regs.role = .master →
      t.out = Out.default ∧
      t.regs = { s.preStep.regs with
        status := .requestSending, txKind := .request, txFrame := frame, txStart := s.now,
        rxReg := 0#32, bitIndex := 0#6, boundarySeen := false, lastLevel := .idle }) ∧
    (¬ (s.preStep.regs.status = .ready ∧ s.regs.role = .master) →
      t.out = { Out.default with ok := false } ∧ t.regs = s.preStep.regs)

/-- SEND_RESPONSE is accepted exactly in a slave's READY or DELAY, and leaves the reception registers alone
(41_transceiver_ops.md R158). -/
def Obligations.SendResponseCommand : Prop :=
  ∀ (frame : Word32) (s : State), ∃ t, exec (.sendResponse frame) s = .next t ∧ s.SameSetting t ∧
    (s.regs.role = .slave ∧ (s.preStep.regs.status = .ready ∨ s.preStep.regs.status = .delay) →
      t.out = Out.default ∧
      t.regs = { s.preStep.regs with
        status := .requestSending, txKind := .response, txFrame := frame, txStart := s.now }) ∧
    (¬ (s.regs.role = .slave ∧ (s.preStep.regs.status = .ready ∨ s.preStep.regs.status = .delay)) →
      t.out = { Out.default with ok := false } ∧ t.regs = s.preStep.regs)

/-- 41_transceiver_ops.md R159: the wire sequence of a frame is a 1, the frame's bits most significant first, and a
1. -/
def Obligations.WireSequence : Prop :=
  ∀ f : Word32, (wireBits f).length = 34 ∧ (wireBits f)[0]? = some true ∧
    (∀ j, j < 32 → (wireBits f)[1 + j]? = some (f.getLsbD (31 - j))) ∧ (wireBits f)[33]? = some true

/-- Every bit-slot has a transition at its middle, to IDLE exactly when its bit is 1, and there is a transition at a
slot boundary exactly when the two adjacent bits are equal (41_transceiver_ops.md R160; 42_receiver.md R214). -/
def Obligations.ManchesterTransitions : Prop :=
  ∀ (f : Word32) (k : Nat), k < 34 →
    halfLevel f (2 * k) ≠ halfLevel f (2 * k + 1) ∧
    (halfLevel f (2 * k + 1) = .idle ↔ (wireBits f)[k]? = some true) ∧
    (k < 33 → (halfLevel f (2 * k + 1) ≠ halfLevel f (2 * k + 2) ↔ (wireBits f)[k]? = (wireBits f)[k + 1]?))

/-- The output line during a transmission, half-bit by half-bit, and IDLE (physically high) from its end on and outside
any transmission (41_transceiver_ops.md R161, R162; 00_scope.md R17). -/
def Obligations.OutputLine : Prop :=
  ∀ s : State, s.cfg.Legal → s.undisciplined = false →
    (s.regs.status = .requestSending →
      (∀ h j, h < 68 → j < s.cfg.tBit / 2 →
        s.txLevel ((s.regs.txStart + h * (s.cfg.tBit / 2) + j) % 2 ^ s.cfg.tsW) = halfLevel s.regs.txFrame h) ∧
      (∀ d, 34 * s.cfg.tBit ≤ d → d < 2 ^ s.cfg.tsW →
        s.outputPin ((s.regs.txStart + d) % 2 ^ s.cfg.tsW) = 1#1)) ∧
    (s.regs.status ≠ .requestSending → ∀ x, s.outputPin x = 1#1)

/-- 42_receiver.md R216: the transitions of a frame's waveform are its leading edge, a mid-bit edge in every slot and a
boundary edge before every slot whose bit equals the one before it; their number is 35 and one for each equal pair, at
least 36 and at most 68. -/
def Obligations.WaveformEdges : Prop :=
  ∀ (c : Params) (f : Word32) (t0 : Nat), c.Legal →
    waveEdges c f t0 = frameEdges c f t0 ∧
    (frameEdges c f t0).length =
      35 + ((List.range 33).filter fun k => (wireBits f)[k + 1]? = (wireBits f)[k]?).length ∧
    36 ≤ (frameEdges c f t0).length ∧ (frameEdges c f t0).length ≤ 68

/-! ## PROCESS -/

/-- 41_transceiver_ops.md R164 and R165: a missing mid-bit edge ends the exchange as invalid, with no report in this
step. -/
def Obligations.ProcessMissingEdge : Prop :=
  ∀ s : State,
    let p := s.preStep
    let d := p.sinceRef
    ∃ t, exec .process s = .next t ∧ s.SameSetting t ∧
      (s.undisciplined = false → d = elapsed s.cfg.tsW s.now p.regs.tRef) ∧
      (p.regs.status = .responseStartBit →
        t.out = Out.default ∧
        t.regs = if s.cfg.halfMax < d then { p.regs with status := .responseInvalid } else p.regs) ∧
      (p.regs.status = .responseReceiving →
        t.out = Out.default ∧
        t.regs = if s.cfg.bitMax < d then { p.regs with status := .responseInvalid } else p.regs)

/-- 41_transceiver_ops.md R166: the response timeout. -/
def Obligations.ProcessTimeout : Prop :=
  ∀ s : State,
    let p := s.preStep
    let d := p.sinceRef
    p.regs.status = .responseWaiting →
    ∃ t, exec .process s = .next t ∧ s.SameSetting t ∧
      (s.undisciplined = false → d = elapsed s.cfg.tsW s.now p.regs.tRef) ∧
      (s.cfg.respTimeout < d →
        t.regs = { p.regs with lastResponse := 0#32, lastStatus := .timeout, status := .delay, tRef := s.now } ∧
        t.out = { res := 0#32, ok := true, cmdErr := false, done := true, rstat := .timeout }) ∧
      (d ≤ s.cfg.respTimeout → t.regs = p.regs ∧ t.out = Out.default)

/-- 41_transceiver_ops.md R167 and R168: the invalid and the success report. -/
def Obligations.ProcessReports : Prop :=
  ∀ s : State,
    let reports (st : RespStatus) : Prop := ∃ t, exec .process s = .next t ∧ s.SameSetting t ∧
      t.regs = { s.regs with lastResponse := s.regs.rxReg, lastStatus := st, status := .delay, tRef := s.now } ∧
      t.out = { res := s.regs.rxReg, ok := true, cmdErr := false, done := true, rstat := st }
    (s.regs.status = .responseInvalid → reports .invalid) ∧ (s.regs.status = .responseReady → reports .success)

/-- 41_transceiver_ops.md R169: DELAY ends once more than `DELAY_GAP` has elapsed since the report, whether or not the
host has kept the timestamp discipline. -/
def Obligations.ProcessDelay : Prop :=
  ∀ s : State, s.regs.status = .delay →
    let d := elapsed s.cfg.tsW s.now s.regs.tRef
    ∃ t, exec .process s = .next t ∧ s.SameSetting t ∧ t.out = Out.default ∧
      t.regs = if s.cfg.delayGap < d then { s.regs with status := .ready, tRef := s.now } else s.regs

/-- 41_transceiver_ops.md R170: PROCESS in NOT_INITIALIZED, READY or REQUEST_SENDING changes nothing beyond the
pre-step and reports nothing. -/
def Obligations.ProcessIdle : Prop :=
  ∀ s : State,
    (s.preStep.regs.status = .notInitialized ∨ s.preStep.regs.status = .ready ∨
      s.preStep.regs.status = .requestSending) →
    ∃ t, exec .process s = .next t ∧ t.regs = s.preStep.regs ∧ t.out = Out.default ∧ s.SameSetting t

/-- Reports are made only by PROCESS, in a state that ends an exchange; each enters DELAY and keeps the reported pair in
`lastResponse` and `lastStatus` (41_transceiver_ops.md R173; 60_exceptions.md R248, R249). -/
def Obligations.OnlyProcessReports : Prop :=
  ∀ (i : Instr) (s t : State), exec i s = .next t →
    (t.out.done = true → i = .process ∧
      (s.preStep.regs.status = .responseWaiting ∨ s.preStep.regs.status = .responseInvalid ∨
        s.preStep.regs.status = .responseReady) ∧
      t.regs.status = .delay ∧ t.regs.lastResponse = t.out.res ∧ t.regs.lastStatus = t.out.rstat ∧
      t.out.rstat ≠ .none) ∧
    (t.regs.status = .delay → s.regs.status ≠ .delay → t.out.done = true)

/-! ## EDGE -/

/-- EDGE's outputs are always the defaults (42_receiver.md R200), and an ignored edge changes no register beyond the
pre-step (R201, R202). -/
def Obligations.EdgeIgnored : Prop :=
  ∀ (pin : Bit) (s : State), ∃ t, exec (.edge pin) s = .next t ∧ t.out = Out.default ∧ s.SameSetting t ∧
    (s.preStep.regs.status = .notInitialized ∨ s.preStep.regs.status = .delay ∨
      s.preStep.regs.status = .requestSending ∨ s.preStep.regs.status = .responseReady ∨
      s.preStep.regs.status = .responseInvalid ∨
      (s.preStep.regs.status = .ready ∧ s.regs.role = .master) → t.regs = s.preStep.regs)

/-- 42_receiver.md R203: a request's start edge in a slave's READY. -/
def Obligations.EdgeStartsSlaveReception : Prop :=
  ∀ (pin : Bit) (s : State), s.preStep.regs.status = .ready → s.regs.role = .slave →
    ∃ t, exec (.edge pin) s = .next t ∧ t.out = Out.default ∧ s.SameSetting t ∧
      (pin ≠ s.cfg.rxIdlePin →
        t.regs = { s.preStep.regs with
          status := .responseStartBit, tRef := s.now, rxReg := 0#32, bitIndex := 0#6, boundarySeen := false,
          lastLevel := .active }) ∧
      (pin = s.cfg.rxIdlePin → t.regs = s.preStep.regs)

/-- 42_receiver.md R204 to R206: an edge in RESPONSE_WAITING. A late one is ignored, and the next PROCESS past the
deadline reports the timeout. -/
def Obligations.EdgeWhileWaiting : Prop :=
  ∀ (pin : Bit) (s : State), s.preStep.regs.status = .responseWaiting →
    let p := s.preStep
    let d := p.sinceRef
    ∃ t, exec (.edge pin) s = .next t ∧ t.out = Out.default ∧ s.SameSetting t ∧
      (s.undisciplined = false → d = elapsed s.cfg.tsW s.now p.regs.tRef) ∧
      (s.cfg.respTimeout < d → t.regs = p.regs ∧
        ∀ later, s.cfg.respTimeout < State.sinceRef { t with now := later } →
          ∃ u, exec .process { t with now := later } = .next u ∧ u.out = Out.report 0#32 .timeout) ∧
      (d ≤ s.cfg.respTimeout → pin ≠ s.cfg.rxIdlePin →
        t.regs = { p.regs with status := .responseStartBit, tRef := s.now, lastLevel := .active }) ∧
      (d ≤ s.cfg.respTimeout → pin = s.cfg.rxIdlePin → t.regs = { p.regs with status := .responseInvalid })

/-- 42_receiver.md R207 and R208: an edge in RESPONSE_START_BIT. -/
def Obligations.EdgeInStartBit : Prop :=
  ∀ (pin : Bit) (s : State), s.regs.status = .responseStartBit →
    let d := s.sinceRef
    ∃ t, exec (.edge pin) s = .next t ∧ t.out = Out.default ∧ s.SameSetting t ∧
      (s.undisciplined = false → d = elapsed s.cfg.tsW s.now s.regs.tRef) ∧
      (s.cfg.halfMin ≤ d ∧ d ≤ s.cfg.halfMax ∧ pin = s.cfg.rxIdlePin →
        t.regs = { s.regs with
          status := .responseReceiving, tRef := s.now, bitIndex := 0#6, boundarySeen := false, lastLevel := .idle }) ∧
      (¬ (s.cfg.halfMin ≤ d ∧ d ≤ s.cfg.halfMax ∧ pin = s.cfg.rxIdlePin) →
        t.regs = { s.regs with status := .responseInvalid })

/-- 42_receiver.md R209 to R213, tried in order: an edge in RESPONSE_RECEIVING. -/
def Obligations.EdgeWhileReceiving : Prop :=
  ∀ (pin : Bit) (s : State), s.cfg.Legal → s.regs.status = .responseReceiving →
    let d := s.sinceRef
    let level : Level := if pin = s.cfg.rxIdlePin then .idle else .active
    let invalid : Regs := { s.regs with status := .responseInvalid }
    let inHalf : Prop := s.cfg.halfMin ≤ d ∧ d ≤ s.cfg.halfMax
    let inBit : Prop := s.cfg.bitMin ≤ d ∧ d ≤ s.cfg.bitMax
    ∃ t, exec (.edge pin) s = .next t ∧ t.out = Out.default ∧ s.SameSetting t ∧
      (s.undisciplined = false → d = elapsed s.cfg.tsW s.now s.regs.tRef) ∧
      (level = s.regs.lastLevel → t.regs = invalid) ∧
      (level ≠ s.regs.lastLevel →
        (s.regs.boundarySeen = false → inHalf → t.regs = { s.regs with boundarySeen := true, lastLevel := level }) ∧
        (inBit → s.regs.bitIndex.toNat < 32 →
          t.regs = { s.regs with
            rxReg := BitVec.ofNat 32 (2 * s.regs.rxReg.toNat + if level = .idle then 1 else 0),
            bitIndex := BitVec.ofNat 6 (s.regs.bitIndex.toNat + 1), tRef := s.now, boundarySeen := false,
            lastLevel := level }) ∧
        (inBit → s.regs.bitIndex.toNat = 32 → level = .idle →
          t.regs = { s.regs with
            status := .responseReady, tRef := s.now, boundarySeen := false, lastLevel := .idle }) ∧
        (inBit → s.regs.bitIndex.toNat = 32 → level = .active → t.regs = invalid) ∧
        (¬ inBit → ¬ (s.regs.boundarySeen = false ∧ inHalf) → t.regs = invalid))

/-! ## Whole-machine rules -/

/-- 10_state.md R44: which commands write which registers; what a command does not write is as the pre-step leaves it
(and as it was, for every register but `status` and `tRef`). A command error leaves every register as it was. -/
def Obligations.WritersOfRegisters : Prop :=
  ∀ (i : Instr) (s t : State), exec i s = .next t →
    (t.out.cmdErr = true → t.regs = s.regs) ∧
    ((∀ b, i ≠ .beginSession b) → t.regs.role = s.regs.role) ∧
    ((∀ b, i ≠ .beginSession b) → (∀ f, i ≠ .sendRequestAsync f) → (∀ p, i ≠ .edge p) →
      t.regs.rxReg = s.regs.rxReg ∧ t.regs.bitIndex = s.regs.bitIndex ∧
      t.regs.boundarySeen = s.regs.boundarySeen ∧ t.regs.lastLevel = s.regs.lastLevel) ∧
    ((∀ b, i ≠ .beginSession b) → i ≠ .process → (∀ p, i ≠ .edge p) → t.out.cmdErr = false →
      t.regs.tRef = s.preStep.regs.tRef) ∧
    ((∀ b, i ≠ .beginSession b) → i ≠ .process →
      t.regs.lastResponse = s.regs.lastResponse ∧ t.regs.lastStatus = s.regs.lastStatus) ∧
    ((∀ f, i ≠ .sendRequestAsync f) → (∀ f, i ≠ .sendResponse f) →
      t.regs.txFrame = s.regs.txFrame ∧ t.regs.txStart = s.regs.txStart ∧ t.regs.txKind = s.regs.txKind) ∧
    (Codec i ∨ Query i → t.out.cmdErr = false → t.regs = s.preStep.regs)

/-- What works before BEGIN: in NOT_INITIALIZED every command but BEGIN leaves every register as it is, and the send
commands are rejected (70_reset_and_hazards.md R273). -/
def Obligations.OnlyBeginOpensSession : Prop :=
  ∀ (i : Instr) (s t : State), s.regs.status = .notInitialized → exec i s = .next t →
    ((∀ b, i ≠ .beginSession b) → t.regs = s.regs) ∧
    ((∃ f, i = .sendRequestAsync f ∨ i = .sendResponse f) → t.out = { Out.default with ok := false })

/-- While an exchange is in flight no foreground command but END disturbs it, and PROCESS does so only by its deadlines
(20_memory.md R69; 70_reset_and_hazards.md R279): the reception registers stay, END writes `status` alone, PROCESS past
the deadline of its state ends the exchange, and every other command leaves every register. -/
def Obligations.ForegroundKeepsExchange : Prop :=
  ∀ (i : Instr) (s t : State), (∀ pin, i ≠ .edge pin) → exec i s = .next t → t.out.cmdErr = false →
    let p := s.preStep
    (p.regs.status = .requestSending ∨ p.regs.status = .responseWaiting ∨
      p.regs.status = .responseStartBit ∨ p.regs.status = .responseReceiving) →
    (t.regs.rxReg = s.regs.rxReg ∧ t.regs.bitIndex = s.regs.bitIndex ∧
      t.regs.boundarySeen = s.regs.boundarySeen ∧ t.regs.lastLevel = s.regs.lastLevel) ∧
    (i ≠ .process → i ≠ .endSession → t.regs = p.regs) ∧
    (i = .endSession → t.regs = { p.regs with status := .notInitialized } ∧ t.out.done = false) ∧
    (i = .process →
      t.regs = p.regs ∨
      (p.regs.status = .responseStartBit ∧ s.cfg.halfMax < p.sinceRef ∧
        t.regs = { p.regs with status := .responseInvalid }) ∨
      (p.regs.status = .responseReceiving ∧ s.cfg.bitMax < p.sinceRef ∧
        t.regs = { p.regs with status := .responseInvalid }) ∨
      (p.regs.status = .responseWaiting ∧ s.cfg.respTimeout < p.sinceRef ∧
        t.out = { res := 0#32, ok := true, cmdErr := false, done := true, rstat := .timeout }))

/-- The outcome of a master's exchange does not depend on a poll between two edges (42_receiver.md R218): a poll at `a`
before an edge at `b` changes nothing, or finds the exchange invalid as the edge alone would, with the same value to
report, or reports the timeout that the edge alone would leave to be reported. -/
def Obligations.PollIndependence : Prop :=
  ∀ (s u v v' : State) (a b : Nat) (pin : Bit), s.cfg.Legal → s.undisciplined = false → s.regs.role = .master →
    (s.regs.status = .responseWaiting ∨ s.regs.status = .responseStartBit ∨ s.regs.status = .responseReceiving) →
    elapsed s.cfg.tsW a s.regs.tRef ≤ elapsed s.cfg.tsW b s.regs.tRef →
    exec .process { s with now := a } = .next u → exec (.edge pin) { u with now := b } = .next v →
    exec (.edge pin) { s with now := b } = .next v' →
    (u.regs = s.regs ∧ v.regs = v'.regs) ∨
    (v.regs.status = .responseInvalid ∧ v'.regs.status = .responseInvalid ∧ v.regs.rxReg = v'.regs.rxReg) ∨
    (v.regs.status = .delay ∧ v.regs.lastResponse = 0#32 ∧ v.regs.lastStatus = .timeout ∧
      ∃ w, exec .process v' = .next w ∧ w.regs.status = .delay ∧ w.regs.lastResponse = 0#32 ∧
        w.regs.lastStatus = .timeout)

/-- Past the bound of 41_transceiver_ops.md R172, of two PROCESS commands the first or the second makes the exchange's
report. -/
def Obligations.BoundedCompletion : Prop :=
  ∀ (s t : State), s.cfg.Legal → s.Inv → s.ExchangeClock → s.undisciplined = false →
    s.regs.role = .master →
    s.cfg.bound < elapsed s.cfg.tsW s.now s.regs.txStart →
    (s.regs.status = .requestSending ∨ s.regs.status = .responseWaiting ∨ s.regs.status = .responseStartBit ∨
      s.regs.status = .responseReceiving ∨ s.regs.status = .responseReady ∨ s.regs.status = .responseInvalid) →
    exec .process s = .next t →
    t.out.done = true ∨
      ∀ later, ∃ u, exec .process { t with now := later } = .next u ∧ u.out.done = true

/-- The receiver reads back every frame (42_receiver.md R217): a block in RESPONSE_WAITING that is given, on the edge
port, the edges of any frame `f`, each displaced by at most `e` microseconds, ends in RESPONSE_READY with `rxReg = f`
and `bitIndex = 32`, and the next PROCESS reports `(f, SUCCESS)`. The undisplaced case is `e = 0`. -/
def Obligations.ReceiverReadsEveryFrame : Prop :=
  ∀ (s : State) (f : Word32) (t0 e : Nat) (δ : Nat → Int) (rest : List Arrival),
    s.cfg.Legal → s.regs.status = .responseWaiting → s.undisciplined = false →
    s.cfg.halfMin + 2 * e ≤ s.cfg.half → s.cfg.half + 2 * e ≤ s.cfg.halfMax →
    s.cfg.bitMin + 2 * e ≤ s.cfg.tBit → s.cfg.tBit + 2 * e ≤ s.cfg.bitMax →
    (∀ k, |δ k| ≤ e) → e ≤ t0 →
    elapsed s.cfg.tsW ((t0 : Int) + δ 0).toNat s.regs.tRef ≤ s.cfg.respTimeout →
    elapsed s.cfg.tsW ((t0 : Int) + δ 0).toNat s.now < 2 ^ (s.cfg.tsW - 1) →
    s.arrivals = edgeArrivals s.cfg (displace δ (frameEdges s.cfg f t0)) ++ rest →
    ∃ t, stepN (frameEdges s.cfg f t0).length s = .next t ∧ t.regs.status = .responseReady ∧ t.regs.rxReg = f ∧
      t.regs.bitIndex = 32#6 ∧ t.arrivals = rest ∧
      ∀ later, ∃ u, exec .process { t with now := later } = .next u ∧
        u.out = { res := f, ok := true, cmdErr := false, done := true, rstat := .success }

/-- SEND_REQUEST (30_encoding.md R96; 41_transceiver_ops.md R171) returns the reply: where the request is accepted and
the remote device answers with the edges of any frame `g` within the response timeout, the host's loop returns `g` at
its first poll after the frame, with any polls before, between and after those edges, in the order of time. -/
def Obligations.SendRequestReturnsReply : Prop :=
  ∀ (s : State) (f g : Word32) (t0 wait last : Nat) (ticks more : List Tick), s.cfg.Legal →
    let p := (s.accept t0 []).preStep
    p.regs.status = .ready → p.regs.role = .master → wait ≤ s.cfg.respTimeout →
    34 * s.cfg.tBit + wait < 2 ^ (s.cfg.tsW - 1) →
    ticks.filter Tick.isEdge = lineTicks s.cfg (frameEdges s.cfg g (t0 + 34 * s.cfg.tBit + wait)) →
    (t0 :: ticks.map Tick.time).Pairwise (· ≤ ·) →
    sendRequestSync f t0 (ticks ++ .poll last :: more) s = some g

/-- The result of SEND_REQUEST is decided by the first report (41_transceiver_ops.md R171): 0 where the request is
rejected; otherwise the first report's value if it is SUCCESS, and 0 if it is INVALID or TIMEOUT. So the first poll in
RESPONSE_INVALID gives 0 and the first in RESPONSE_READY gives `rxReg`. That the loop has no answer while no report has
come is the model's form of it (log entry 13). -/
def Obligations.FirstReportDecides : Prop :=
  ∀ (s v : State) (f : Word32) (t0 : Nat) (ticks : List Tick),
    step (s.present (.command t0 (encode (.sendRequestAsync f)))) = .next v →
    (v.out.ok = false → sendRequestSync f t0 ticks s = some 0#32) ∧
    (v.out.ok = true → ∀ u, quietRun ticks v = some u →
      sendRequestSync f t0 ticks s = none ∧
      ∀ (now : Nat) (more : List Tick),
        let result := sendRequestSync f t0 (ticks ++ .poll now :: more) s
        (∀ t, step (u.present (.command now (encode .process))) = .next t → t.out.done = true →
          (t.out.rstat = .success → result = some t.out.res) ∧ (t.out.rstat = .invalid → result = some 0#32) ∧
          (t.out.rstat = .timeout → result = some 0#32) ∧ t.out.rstat ≠ .none) ∧
        (u.regs.status = .responseInvalid → result = some 0#32) ∧
        (u.regs.status = .responseReady → result = some u.regs.rxReg))

/-- SEND_REQUEST without a reply (41_transceiver_ops.md R166, R171): where the request is accepted, no edge comes and the
host polls, in the order of time and at last past the deadline, the loop returns 0. -/
def Obligations.SendRequestTimesOut : Prop :=
  ∀ (s : State) (f : Word32) (t0 last : Nat) (polls : List Nat), s.cfg.Legal →
    let p := (s.accept t0 []).preStep
    p.regs.status = .ready → p.regs.role = .master →
    (t0 :: (polls ++ [last])).Pairwise (· ≤ ·) →
    t0 + 34 * s.cfg.tBit + s.cfg.respTimeout < last → last < t0 + 2 ^ (s.cfg.tsW - 1) →
    sendRequestSync f t0 ((polls ++ [last]).map .poll) s = some 0#32
end

