-- ==== Sys2Proof/Laws/Codec.lean ====
section
/-! SUPPORT. The laws of the parity function and of the frame's fields (40_codec.md R110, R112). -/

namespace Sys2Proof.Machine

/-- Counting the positions where exactly one of two tests holds. -/
theorem countP_xor_mod_two {α : Type} (p q : α → Bool) (l : List α) :
    l.countP (fun x => p x ^^ q x) % 2 = (l.countP p + l.countP q) % 2 := by
  induction l with
  | nil => rfl
  | cons a l ih =>
    simp only [List.countP_cons]
    cases hp : p a <;> cases hq : q a <;> simp <;> omega

/-- Parity is additive: an error pattern `e` changes the parity exactly when it has an odd number of bits. -/
theorem oddParity_xor (f e : Word32) : oddParity (f ^^^ e) = (oddParity f ^^ oddParity e) := by
  have h := countP_xor_mod_two (fun i => f.getLsbD i) (fun i => e.getLsbD i) (List.range 32)
  have h' : popcount (f ^^^ e) % 2 = (popcount f + popcount e) % 2 := by
    simpa only [popcount, BitVec.getLsbD_xor] using h
  unfold oddParity
  by_cases hf : popcount f % 2 = 1 <;> by_cases he : popcount e % 2 = 1 <;> simp [hf, he] <;> omega

/-- The number of set bits, as the size of the set of their positions. -/
theorem card_eq_popcount (f : Word32) :
    (Finset.univ.filter fun i : Fin 32 => f.getLsbD i = true).card = popcount f := by
  have h : (Finset.univ.filter fun i : Fin 32 => f.getLsbD i = true).map Fin.valEmbedding
      = (Finset.range 32).filter fun i => f.getLsbD i = true := by
    ext i
    simp only [Finset.mem_map, Finset.mem_filter, Finset.mem_univ, true_and, Finset.mem_range, Fin.valEmbedding_apply]
    exact ⟨fun ⟨a, h, e⟩ => e ▸ ⟨a.isLt, h⟩, fun ⟨h1, h2⟩ => ⟨⟨i, h1⟩, h2, rfl⟩⟩
  rw [← Finset.card_map, h, popcount, List.countP_eq_length_filter,
    ← List.toFinset_card_of_nodup (List.nodup_range.filter _)]
  congr 1
  ext i
  simp

theorem odd_card_iff (f : Word32) :
    Odd (Finset.univ.filter fun i : Fin 32 => f.getLsbD i = true).card ↔ oddParity f = true := by
  rw [card_eq_popcount, Nat.odd_iff, oddParity]
  simp

theorem even_card_iff (f : Word32) :
    Even (Finset.univ.filter fun i : Fin 32 => f.getLsbD i = true).card ↔ oddParity f = false := by
  rw [← Nat.not_odd_iff_even, odd_card_iff]
  simp

/-- A single bit has odd parity. -/
theorem oddParity_single (i : Fin 32) : oddParity (1#32 <<< i.val) = true := by
  revert i
  decide

theorem oddParity_topBit : oddParity (1#32 <<< 31) = true := by decide

/-- Setting a clear top bit is flipping it. -/
theorem or_topBit (c : Word32) (h : c.getLsbD 31 = false) : c ||| 1#32 <<< 31 = c ^^^ 1#32 <<< 31 := by
  apply BitVec.eq_of_getLsbD_eq
  intro i hi
  rw [BitVec.getLsbD_or, BitVec.getLsbD_xor]
  by_cases h31 : i = 31
  · subst h31
    rw [h]
    rfl
  · have : (1#32 <<< 31).getLsbD i = false := by
      rw [BitVec.getLsbD_shiftLeft]
      simp [show i < 31 by omega]
    rw [this]
    simp

/-- The parity generator's result has even parity (40_codec.md R112). -/
theorem oddParity_withParity (c : Word32) (h : c.getLsbD 31 = false) : oddParity (withParity c) = false := by
  unfold withParity
  by_cases hp : oddParity c = true
  · rw [if_pos hp, or_topBit c h, oddParity_xor, oddParity_topBit, hp]
    rfl
  · rw [if_neg hp]
    simpa using hp

/-- The parity generator changes bit 31 only. -/
theorem withParity_getLsbD (c : Word32) {i : Nat} (h : i < 31) : (withParity c).getLsbD i = c.getLsbD i := by
  unfold withParity
  split
  · rw [BitVec.getLsbD_or, BitVec.getLsbD_shiftLeft]
    simp [h]
  · rfl

/-- The bits of a frame's content. -/
theorem content_getLsbD (type : BitVec 3) (id : BitVec 8) (value : BitVec 16) (i : Nat) :
    (content type id value).getLsbD i =
      if i < 16 then value.getLsbD i else if i < 24 then id.getLsbD (i - 16)
      else if i < 28 then false else type.getLsbD (i - 28) := by
  change (0#1 ++ type ++ 0#4 ++ id ++ value : BitVec (1 + 3 + 4 + 8 + 16)).getLsbD i = _
  simp only [BitVec.getLsbD_append, BitVec.getLsbD_zero]
  by_cases h1 : i < 16
  · simp [h1]
  by_cases h2 : i < 24
  · simp [h1, h2, show i - 16 < 8 by omega]
  by_cases h3 : i < 28
  · simp [h1, h2, h3, show ¬ i - 16 < 8 by omega, show i - 16 - 8 < 4 by omega]
  · simp only [h1, h2, h3, show ¬ i - 16 < 8 by omega, show ¬ i - 16 - 8 < 4 by omega, if_false]
    rw [show i - 16 - 8 - 4 = i - 28 by omega]
    split
    · rfl
    · exact (BitVec.getLsbD_of_ge _ _ (by omega)).symm

theorem content_topBit (type : BitVec 3) (id : BitVec 8) (value : BitVec 16) :
    (content type id value).getLsbD 31 = false := by
  rw [content_getLsbD]
  simp

/-! The fields of a built frame are its operands. -/

theorem messageType_withParity (type : BitVec 3) (id : BitVec 8) (value : BitVec 16) :
    messageType (withParity (content type id value)) = type := by
  ext i hi
  rw [messageType, BitVec.getElem_extractLsb', withParity_getLsbD _ (by omega), content_getLsbD,
    if_neg (by omega), if_neg (by omega), if_neg (by omega), BitVec.getLsbD_eq_getElem (by omega)]
  simp

theorem spare_withParity (type : BitVec 3) (id : BitVec 8) (value : BitVec 16) :
    spare (withParity (content type id value)) = 0#4 := by
  ext i hi
  rw [spare, BitVec.getElem_extractLsb', withParity_getLsbD _ (by omega), content_getLsbD,
    if_neg (by omega), if_neg (by omega), if_pos (by omega)]
  simp

theorem dataId_withParity (type : BitVec 3) (id : BitVec 8) (value : BitVec 16) :
    dataId (withParity (content type id value)) = id := by
  ext i hi
  rw [dataId, BitVec.getElem_extractLsb', withParity_getLsbD _ (by omega), content_getLsbD,
    if_neg (by omega), if_pos (by omega), BitVec.getLsbD_eq_getElem (by omega)]
  simp

theorem dataValue_withParity (type : BitVec 3) (id : BitVec 8) (value : BitVec 16) :
    dataValue (withParity (content type id value)) = value := by
  ext i hi
  rw [dataValue, BitVec.getElem_extractLsb', withParity_getLsbD _ (by omega), content_getLsbD,
    if_pos (by omega), BitVec.getLsbD_eq_getElem (by omega)]
  simp

end Sys2Proof.Machine
end

