-- ==== Sys2Proof/Laws/Encoding.lean ====
section
/-! SUPPORT. The fields of an encoded word (30_encoding.md R84, R85). -/

namespace Sys2Proof

/-- The bits of a word put together from its opcode and operand field. -/
theorem word_getLsbD (b : BitVec 8) (x : Word32) (i : Nat) :
    (b ++ 0#24 ++ x : CommandWord).getLsbD i =
      if i < 32 then x.getLsbD i else if i < 56 then false else b.getLsbD (i - 56) := by
  simp only [BitVec.getLsbD_append, BitVec.getLsbD_zero]
  by_cases h1 : i < 32
  · simp [h1]
  by_cases h2 : i < 56
  · simp [h1, h2, show i - 32 < 24 by omega]
  · simp only [h1, h2, show ¬ i - 32 < 24 by omega, if_false]
    rw [show i - 32 - 24 = i - 56 by omega]

/-- The opcode of a word put together from its fields. -/
theorem opcodeByte_word (b : BitVec 8) (x : Word32) : opcodeByte (b ++ 0#24 ++ x) = b := by
  apply BitVec.eq_of_getLsbD_eq
  intro i hi
  rw [opcodeByte, BitVec.getLsbD_extractLsb', word_getLsbD, if_neg (by omega), if_neg (by omega),
    show 56 + i - 56 = i by omega]
  simp [hi]

/-- The operand field of a word put together from its fields. -/
theorem operandField_word (b : BitVec 8) (x : Word32) : operandField (b ++ 0#24 ++ x) = x := by
  apply BitVec.eq_of_getLsbD_eq
  intro i hi
  rw [operandField, BitVec.getLsbD_extractLsb', word_getLsbD, if_pos (by omega)]
  simp [hi]

/-- A field of the operand field, read from the whole word. -/
theorem extract_word (b : BitVec 8) (x : Word32) {lo n : Nat} (h : lo + n ≤ 32) :
    BitVec.extractLsb' lo n (b ++ 0#24 ++ x) = x.extractLsb' lo n := by
  apply BitVec.eq_of_getLsbD_eq
  intro i hi
  rw [BitVec.getLsbD_extractLsb', BitVec.getLsbD_extractLsb', word_getLsbD, if_pos (by omega)]

/-- Reading an opcode's own byte gives the opcode. -/
@[simp] theorem ofByte_code (op : Opcode) : Opcode.ofByte op.code = some op := by
  cases op <;> decide

/-- A byte that stands for an opcode is that opcode's code. -/
theorem code_of_ofByte {b : BitVec 8} {op : Opcode} (h : Opcode.ofByte b = some op) : op.code = b := by
  simpa [Opcode.ofByte] using List.find?_some h

/-- The bits of format L's operand field. -/
theorem operandL_getLsbD (b : Bit) (i : Nat) : (operandL b).getLsbD i = b.getLsbD i := by
  change (0#31 ++ b : BitVec (31 + 1)).getLsbD i = _
  simp only [BitVec.getLsbD_append, BitVec.getLsbD_zero]
  split
  · rfl
  · exact (BitVec.getLsbD_of_ge _ _ (by omega)).symm

/-- The bits of format B's operand field. -/
theorem operandB_getLsbD (type : BitVec 3) (id : BitVec 8) (value : BitVec 16) (i : Nat) :
    (operandB type id value).getLsbD i =
      if i < 16 then value.getLsbD i else if i < 24 then id.getLsbD (i - 16)
      else if i < 28 then false else type.getLsbD (i - 28) := by
  change (0#1 ++ type ++ 0#4 ++ id ++ value : BitVec (1 + 3 + 4 + 8 + 16)).getLsbD i = _
  simp only [BitVec.getLsbD_append, BitVec.getLsbD_zero]
  by_cases h1 : i < 16
  · simp [h1]
  by_cases h2 : i < 24
  · simp [h1, h2, show i - 16 < 8 by omega]
  by_cases h3 : i < 28
  · simp [h1, h2, h3, show ¬ i - 16 < 8 by omega, show i - 16 - 8 < 4 by omega]
  · simp only [h1, h2, h3, show ¬ i - 16 < 8 by omega, show ¬ i - 16 - 8 < 4 by omega, if_false]
    rw [show i - 16 - 8 - 4 = i - 28 by omega]
    split
    · rfl
    · exact (BitVec.getLsbD_of_ge _ _ (by omega)).symm

/-- What a successful decoding says about its word. -/
theorem decode_eq_ok {w : CommandWord} {i : Instr} (h : decode w = .ok i) :
    ∃ op : Opcode, op.code = opcodeByte w ∧ w &&& op.format.reserved = 0#64 ∧ i = op.assemble w := by
  unfold decode at h
  split at h
  · cases h
  · rename_i op hop
    split at h
    · exact ⟨op, code_of_ofByte hop, ‹_›, by simpa using h.symm⟩
    · cases h

/-- A word with an assigned opcode and no reserved bit set decodes to the opcode's command. -/
theorem decode_of_opcode {w : CommandWord} {op : Opcode} (h : opcodeByte w = op.code)
    (hr : w &&& op.format.reserved = 0#64) : decode w = .ok (op.assemble w) := by
  simp [decode, h, hr]

/-- The assembled command has the opcode it was assembled for. -/
@[simp] theorem opcode_assemble (op : Opcode) (w : CommandWord) : (op.assemble w).opcode = op := by
  cases op <;> rfl

end Sys2Proof
end

