-- ==== Sys2Proof/Laws/State.lean ====
section
/-! SUPPORT. What each update of the registers and of the state does to each field, one lemma per field. -/

namespace Sys2Proof.Machine

/-! `Regs.setStatus` -/

@[simp] theorem Regs.setStatus_status (r : Regs) (p : Status) : (r.setStatus p).status = p := rfl
@[simp] theorem Regs.setStatus_role (r : Regs) (p : Status) : (r.setStatus p).role = r.role := rfl
@[simp] theorem Regs.setStatus_rxReg (r : Regs) (p : Status) : (r.setStatus p).rxReg = r.rxReg := rfl
@[simp] theorem Regs.setStatus_bitIndex (r : Regs) (p : Status) : (r.setStatus p).bitIndex = r.bitIndex := rfl
@[simp] theorem Regs.setStatus_boundarySeen (r : Regs) (p : Status) : (r.setStatus p).boundarySeen = r.boundarySeen := rfl
@[simp] theorem Regs.setStatus_lastLevel (r : Regs) (p : Status) : (r.setStatus p).lastLevel = r.lastLevel := rfl
@[simp] theorem Regs.setStatus_tRef (r : Regs) (p : Status) : (r.setStatus p).tRef = r.tRef := rfl
@[simp] theorem Regs.setStatus_lastResponse (r : Regs) (p : Status) : (r.setStatus p).lastResponse = r.lastResponse := rfl
@[simp] theorem Regs.setStatus_lastStatus (r : Regs) (p : Status) : (r.setStatus p).lastStatus = r.lastStatus := rfl
@[simp] theorem Regs.setStatus_txFrame (r : Regs) (p : Status) : (r.setStatus p).txFrame = r.txFrame := rfl
@[simp] theorem Regs.setStatus_txStart (r : Regs) (p : Status) : (r.setStatus p).txStart = r.txStart := rfl
@[simp] theorem Regs.setStatus_txKind (r : Regs) (p : Status) : (r.setStatus p).txKind = r.txKind := rfl

/-! `Regs.enter` -/

@[simp] theorem Regs.enter_status (r : Regs) (p : Status) (t : Nat) : (r.enter p t).status = p := rfl
@[simp] theorem Regs.enter_role (r : Regs) (p : Status) (t : Nat) : (r.enter p t).role = r.role := rfl
@[simp] theorem Regs.enter_rxReg (r : Regs) (p : Status) (t : Nat) : (r.enter p t).rxReg = r.rxReg := rfl
@[simp] theorem Regs.enter_bitIndex (r : Regs) (p : Status) (t : Nat) : (r.enter p t).bitIndex = r.bitIndex := rfl
@[simp] theorem Regs.enter_boundarySeen (r : Regs) (p : Status) (t : Nat) : (r.enter p t).boundarySeen = r.boundarySeen := rfl
@[simp] theorem Regs.enter_lastLevel (r : Regs) (p : Status) (t : Nat) : (r.enter p t).lastLevel = r.lastLevel := rfl
@[simp] theorem Regs.enter_tRef (r : Regs) (p : Status) (t : Nat) : (r.enter p t).tRef = t := rfl
@[simp] theorem Regs.enter_lastResponse (r : Regs) (p : Status) (t : Nat) : (r.enter p t).lastResponse = r.lastResponse := rfl
@[simp] theorem Regs.enter_lastStatus (r : Regs) (p : Status) (t : Nat) : (r.enter p t).lastStatus = r.lastStatus := rfl
@[simp] theorem Regs.enter_txFrame (r : Regs) (p : Status) (t : Nat) : (r.enter p t).txFrame = r.txFrame := rfl
@[simp] theorem Regs.enter_txStart (r : Regs) (p : Status) (t : Nat) : (r.enter p t).txStart = r.txStart := rfl
@[simp] theorem Regs.enter_txKind (r : Regs) (p : Status) (t : Nat) : (r.enter p t).txKind = r.txKind := rfl

/-! `Regs.clearReception` -/

@[simp] theorem Regs.clearReception_status (r : Regs) (l : Level) : (r.clearReception l).status = r.status := rfl
@[simp] theorem Regs.clearReception_role (r : Regs) (l : Level) : (r.clearReception l).role = r.role := rfl
@[simp] theorem Regs.clearReception_rxReg (r : Regs) (l : Level) : (r.clearReception l).rxReg = 0#32 := rfl
@[simp] theorem Regs.clearReception_bitIndex (r : Regs) (l : Level) : (r.clearReception l).bitIndex = 0#6 := rfl
@[simp] theorem Regs.clearReception_boundarySeen (r : Regs) (l : Level) : (r.clearReception l).boundarySeen = false := rfl
@[simp] theorem Regs.clearReception_lastLevel (r : Regs) (l : Level) : (r.clearReception l).lastLevel = l := rfl
@[simp] theorem Regs.clearReception_tRef (r : Regs) (l : Level) : (r.clearReception l).tRef = r.tRef := rfl
@[simp] theorem Regs.clearReception_lastResponse (r : Regs) (l : Level) : (r.clearReception l).lastResponse = r.lastResponse := rfl
@[simp] theorem Regs.clearReception_lastStatus (r : Regs) (l : Level) : (r.clearReception l).lastStatus = r.lastStatus := rfl
@[simp] theorem Regs.clearReception_txFrame (r : Regs) (l : Level) : (r.clearReception l).txFrame = r.txFrame := rfl
@[simp] theorem Regs.clearReception_txStart (r : Regs) (l : Level) : (r.clearReception l).txStart = r.txStart := rfl
@[simp] theorem Regs.clearReception_txKind (r : Regs) (l : Level) : (r.clearReception l).txKind = r.txKind := rfl

/-! `Regs.openSession` -/

@[simp] theorem Regs.openSession_status (r : Regs) (x : Role) (t : Nat) : (r.openSession x t).status = .ready := rfl
@[simp] theorem Regs.openSession_role (r : Regs) (x : Role) (t : Nat) : (r.openSession x t).role = x := rfl
@[simp] theorem Regs.openSession_rxReg (r : Regs) (x : Role) (t : Nat) : (r.openSession x t).rxReg = r.rxReg := rfl
@[simp] theorem Regs.openSession_bitIndex (r : Regs) (x : Role) (t : Nat) : (r.openSession x t).bitIndex = r.bitIndex := rfl
@[simp] theorem Regs.openSession_boundarySeen (r : Regs) (x : Role) (t : Nat) : (r.openSession x t).boundarySeen = r.boundarySeen := rfl
@[simp] theorem Regs.openSession_lastLevel (r : Regs) (x : Role) (t : Nat) : (r.openSession x t).lastLevel = r.lastLevel := rfl
@[simp] theorem Regs.openSession_tRef (r : Regs) (x : Role) (t : Nat) : (r.openSession x t).tRef = t := rfl
@[simp] theorem Regs.openSession_lastResponse (r : Regs) (x : Role) (t : Nat) : (r.openSession x t).lastResponse = 0#32 := rfl
@[simp] theorem Regs.openSession_lastStatus (r : Regs) (x : Role) (t : Nat) : (r.openSession x t).lastStatus = .none := rfl
@[simp] theorem Regs.openSession_txFrame (r : Regs) (x : Role) (t : Nat) : (r.openSession x t).txFrame = r.txFrame := rfl
@[simp] theorem Regs.openSession_txStart (r : Regs) (x : Role) (t : Nat) : (r.openSession x t).txStart = r.txStart := rfl
@[simp] theorem Regs.openSession_txKind (r : Regs) (x : Role) (t : Nat) : (r.openSession x t).txKind = r.txKind := rfl

/-! `Regs.startSending` -/

@[simp] theorem Regs.startSending_status (r : Regs) (k : TxKind) (f : Word32) (t : Nat) : (r.startSending k f t).status = .requestSending := rfl
@[simp] theorem Regs.startSending_role (r : Regs) (k : TxKind) (f : Word32) (t : Nat) : (r.startSending k f t).role = r.role := rfl
@[simp] theorem Regs.startSending_rxReg (r : Regs) (k : TxKind) (f : Word32) (t : Nat) : (r.startSending k f t).rxReg = r.rxReg := rfl
@[simp] theorem Regs.startSending_bitIndex (r : Regs) (k : TxKind) (f : Word32) (t : Nat) : (r.startSending k f t).bitIndex = r.bitIndex := rfl
@[simp] theorem Regs.startSending_boundarySeen (r : Regs) (k : TxKind) (f : Word32) (t : Nat) : (r.startSending k f t).boundarySeen = r.boundarySeen := rfl
@[simp] theorem Regs.startSending_lastLevel (r : Regs) (k : TxKind) (f : Word32) (t : Nat) : (r.startSending k f t).lastLevel = r.lastLevel := rfl
@[simp] theorem Regs.startSending_tRef (r : Regs) (k : TxKind) (f : Word32) (t : Nat) : (r.startSending k f t).tRef = r.tRef := rfl
@[simp] theorem Regs.startSending_lastResponse (r : Regs) (k : TxKind) (f : Word32) (t : Nat) : (r.startSending k f t).lastResponse = r.lastResponse := rfl
@[simp] theorem Regs.startSending_lastStatus (r : Regs) (k : TxKind) (f : Word32) (t : Nat) : (r.startSending k f t).lastStatus = r.lastStatus := rfl
@[simp] theorem Regs.startSending_txFrame (r : Regs) (k : TxKind) (f : Word32) (t : Nat) : (r.startSending k f t).txFrame = f := rfl
@[simp] theorem Regs.startSending_txStart (r : Regs) (k : TxKind) (f : Word32) (t : Nat) : (r.startSending k f t).txStart = t := rfl
@[simp] theorem Regs.startSending_txKind (r : Regs) (k : TxKind) (f : Word32) (t : Nat) : (r.startSending k f t).txKind = k := rfl

/-! `Regs.complete` -/

@[simp] theorem Regs.complete_status (r : Regs) (v : Word32) (x : RespStatus) (t : Nat) : (r.complete v x t).status = .delay := rfl
@[simp] theorem Regs.complete_role (r : Regs) (v : Word32) (x : RespStatus) (t : Nat) : (r.complete v x t).role = r.role := rfl
@[simp] theorem Regs.complete_rxReg (r : Regs) (v : Word32) (x : RespStatus) (t : Nat) : (r.complete v x t).rxReg = r.rxReg := rfl
@[simp] theorem Regs.complete_bitIndex (r : Regs) (v : Word32) (x : RespStatus) (t : Nat) : (r.complete v x t).bitIndex = r.bitIndex := rfl
@[simp] theorem Regs.complete_boundarySeen (r : Regs) (v : Word32) (x : RespStatus) (t : Nat) : (r.complete v x t).boundarySeen = r.boundarySeen := rfl
@[simp] theorem Regs.complete_lastLevel (r : Regs) (v : Word32) (x : RespStatus) (t : Nat) : (r.complete v x t).lastLevel = r.lastLevel := rfl
@[simp] theorem Regs.complete_tRef (r : Regs) (v : Word32) (x : RespStatus) (t : Nat) : (r.complete v x t).tRef = t := rfl
@[simp] theorem Regs.complete_lastResponse (r : Regs) (v : Word32) (x : RespStatus) (t : Nat) : (r.complete v x t).lastResponse = v := rfl
@[simp] theorem Regs.complete_lastStatus (r : Regs) (v : Word32) (x : RespStatus) (t : Nat) : (r.complete v x t).lastStatus = x := rfl
@[simp] theorem Regs.complete_txFrame (r : Regs) (v : Word32) (x : RespStatus) (t : Nat) : (r.complete v x t).txFrame = r.txFrame := rfl
@[simp] theorem Regs.complete_txStart (r : Regs) (v : Word32) (x : RespStatus) (t : Nat) : (r.complete v x t).txStart = r.txStart := rfl
@[simp] theorem Regs.complete_txKind (r : Regs) (v : Word32) (x : RespStatus) (t : Nat) : (r.complete v x t).txKind = r.txKind := rfl

/-! `Regs.startBit` -/

@[simp] theorem Regs.startBit_status (r : Regs) (t : Nat) : (r.startBit t).status = .responseStartBit := rfl
@[simp] theorem Regs.startBit_role (r : Regs) (t : Nat) : (r.startBit t).role = r.role := rfl
@[simp] theorem Regs.startBit_rxReg (r : Regs) (t : Nat) : (r.startBit t).rxReg = r.rxReg := rfl
@[simp] theorem Regs.startBit_bitIndex (r : Regs) (t : Nat) : (r.startBit t).bitIndex = r.bitIndex := rfl
@[simp] theorem Regs.startBit_boundarySeen (r : Regs) (t : Nat) : (r.startBit t).boundarySeen = r.boundarySeen := rfl
@[simp] theorem Regs.startBit_lastLevel (r : Regs) (t : Nat) : (r.startBit t).lastLevel = .active := rfl
@[simp] theorem Regs.startBit_tRef (r : Regs) (t : Nat) : (r.startBit t).tRef = t := rfl
@[simp] theorem Regs.startBit_lastResponse (r : Regs) (t : Nat) : (r.startBit t).lastResponse = r.lastResponse := rfl
@[simp] theorem Regs.startBit_lastStatus (r : Regs) (t : Nat) : (r.startBit t).lastStatus = r.lastStatus := rfl
@[simp] theorem Regs.startBit_txFrame (r : Regs) (t : Nat) : (r.startBit t).txFrame = r.txFrame := rfl
@[simp] theorem Regs.startBit_txStart (r : Regs) (t : Nat) : (r.startBit t).txStart = r.txStart := rfl
@[simp] theorem Regs.startBit_txKind (r : Regs) (t : Nat) : (r.startBit t).txKind = r.txKind := rfl

/-! `Regs.beginData` -/

@[simp] theorem Regs.beginData_status (r : Regs) (t : Nat) : (r.beginData t).status = .responseReceiving := rfl
@[simp] theorem Regs.beginData_role (r : Regs) (t : Nat) : (r.beginData t).role = r.role := rfl
@[simp] theorem Regs.beginData_rxReg (r : Regs) (t : Nat) : (r.beginData t).rxReg = r.rxReg := rfl
@[simp] theorem Regs.beginData_bitIndex (r : Regs) (t : Nat) : (r.beginData t).bitIndex = 0#6 := rfl
@[simp] theorem Regs.beginData_boundarySeen (r : Regs) (t : Nat) : (r.beginData t).boundarySeen = false := rfl
@[simp] theorem Regs.beginData_lastLevel (r : Regs) (t : Nat) : (r.beginData t).lastLevel = .idle := rfl
@[simp] theorem Regs.beginData_tRef (r : Regs) (t : Nat) : (r.beginData t).tRef = t := rfl
@[simp] theorem Regs.beginData_lastResponse (r : Regs) (t : Nat) : (r.beginData t).lastResponse = r.lastResponse := rfl
@[simp] theorem Regs.beginData_lastStatus (r : Regs) (t : Nat) : (r.beginData t).lastStatus = r.lastStatus := rfl
@[simp] theorem Regs.beginData_txFrame (r : Regs) (t : Nat) : (r.beginData t).txFrame = r.txFrame := rfl
@[simp] theorem Regs.beginData_txStart (r : Regs) (t : Nat) : (r.beginData t).txStart = r.txStart := rfl
@[simp] theorem Regs.beginData_txKind (r : Regs) (t : Nat) : (r.beginData t).txKind = r.txKind := rfl

/-! `Regs.acceptBoundary` -/

@[simp] theorem Regs.acceptBoundary_status (r : Regs) (l : Level) : (r.acceptBoundary l).status = r.status := rfl
@[simp] theorem Regs.acceptBoundary_role (r : Regs) (l : Level) : (r.acceptBoundary l).role = r.role := rfl
@[simp] theorem Regs.acceptBoundary_rxReg (r : Regs) (l : Level) : (r.acceptBoundary l).rxReg = r.rxReg := rfl
@[simp] theorem Regs.acceptBoundary_bitIndex (r : Regs) (l : Level) : (r.acceptBoundary l).bitIndex = r.bitIndex := rfl
@[simp] theorem Regs.acceptBoundary_boundarySeen (r : Regs) (l : Level) : (r.acceptBoundary l).boundarySeen = true := rfl
@[simp] theorem Regs.acceptBoundary_lastLevel (r : Regs) (l : Level) : (r.acceptBoundary l).lastLevel = l := rfl
@[simp] theorem Regs.acceptBoundary_tRef (r : Regs) (l : Level) : (r.acceptBoundary l).tRef = r.tRef := rfl
@[simp] theorem Regs.acceptBoundary_lastResponse (r : Regs) (l : Level) : (r.acceptBoundary l).lastResponse = r.lastResponse := rfl
@[simp] theorem Regs.acceptBoundary_lastStatus (r : Regs) (l : Level) : (r.acceptBoundary l).lastStatus = r.lastStatus := rfl
@[simp] theorem Regs.acceptBoundary_txFrame (r : Regs) (l : Level) : (r.acceptBoundary l).txFrame = r.txFrame := rfl
@[simp] theorem Regs.acceptBoundary_txStart (r : Regs) (l : Level) : (r.acceptBoundary l).txStart = r.txStart := rfl
@[simp] theorem Regs.acceptBoundary_txKind (r : Regs) (l : Level) : (r.acceptBoundary l).txKind = r.txKind := rfl

/-! `Regs.acceptBit` -/

@[simp] theorem Regs.acceptBit_status (r : Regs) (l : Level) (t : Nat) : (r.acceptBit l t).status = r.status := rfl
@[simp] theorem Regs.acceptBit_role (r : Regs) (l : Level) (t : Nat) : (r.acceptBit l t).role = r.role := rfl
@[simp] theorem Regs.acceptBit_rxReg (r : Regs) (l : Level) (t : Nat) : (r.acceptBit l t).rxReg = shiftIn r.rxReg (bitOf l) := rfl
@[simp] theorem Regs.acceptBit_bitIndex (r : Regs) (l : Level) (t : Nat) : (r.acceptBit l t).bitIndex = r.bitIndex + 1#6 := rfl
@[simp] theorem Regs.acceptBit_boundarySeen (r : Regs) (l : Level) (t : Nat) : (r.acceptBit l t).boundarySeen = false := rfl
@[simp] theorem Regs.acceptBit_lastLevel (r : Regs) (l : Level) (t : Nat) : (r.acceptBit l t).lastLevel = l := rfl
@[simp] theorem Regs.acceptBit_tRef (r : Regs) (l : Level) (t : Nat) : (r.acceptBit l t).tRef = t := rfl
@[simp] theorem Regs.acceptBit_lastResponse (r : Regs) (l : Level) (t : Nat) : (r.acceptBit l t).lastResponse = r.lastResponse := rfl
@[simp] theorem Regs.acceptBit_lastStatus (r : Regs) (l : Level) (t : Nat) : (r.acceptBit l t).lastStatus = r.lastStatus := rfl
@[simp] theorem Regs.acceptBit_txFrame (r : Regs) (l : Level) (t : Nat) : (r.acceptBit l t).txFrame = r.txFrame := rfl
@[simp] theorem Regs.acceptBit_txStart (r : Regs) (l : Level) (t : Nat) : (r.acceptBit l t).txStart = r.txStart := rfl
@[simp] theorem Regs.acceptBit_txKind (r : Regs) (l : Level) (t : Nat) : (r.acceptBit l t).txKind = r.txKind := rfl

/-! `Regs.acceptStop` -/

@[simp] theorem Regs.acceptStop_status (r : Regs) (t : Nat) : (r.acceptStop t).status = .responseReady := rfl
@[simp] theorem Regs.acceptStop_role (r : Regs) (t : Nat) : (r.acceptStop t).role = r.role := rfl
@[simp] theorem Regs.acceptStop_rxReg (r : Regs) (t : Nat) : (r.acceptStop t).rxReg = r.rxReg := rfl
@[simp] theorem Regs.acceptStop_bitIndex (r : Regs) (t : Nat) : (r.acceptStop t).bitIndex = r.bitIndex := rfl
@[simp] theorem Regs.acceptStop_boundarySeen (r : Regs) (t : Nat) : (r.acceptStop t).boundarySeen = false := rfl
@[simp] theorem Regs.acceptStop_lastLevel (r : Regs) (t : Nat) : (r.acceptStop t).lastLevel = .idle := rfl
@[simp] theorem Regs.acceptStop_tRef (r : Regs) (t : Nat) : (r.acceptStop t).tRef = t := rfl
@[simp] theorem Regs.acceptStop_lastResponse (r : Regs) (t : Nat) : (r.acceptStop t).lastResponse = r.lastResponse := rfl
@[simp] theorem Regs.acceptStop_lastStatus (r : Regs) (t : Nat) : (r.acceptStop t).lastStatus = r.lastStatus := rfl
@[simp] theorem Regs.acceptStop_txFrame (r : Regs) (t : Nat) : (r.acceptStop t).txFrame = r.txFrame := rfl
@[simp] theorem Regs.acceptStop_txStart (r : Regs) (t : Nat) : (r.acceptStop t).txStart = r.txStart := rfl
@[simp] theorem Regs.acceptStop_txKind (r : Regs) (t : Nat) : (r.acceptStop t).txKind = r.txKind := rfl

/-! `State.setRegs` -/

@[simp] theorem State.setRegs_cfg (s : State) (r : Regs) : (s.setRegs r).cfg = s.cfg := rfl
@[simp] theorem State.setRegs_regs (s : State) (r : Regs) : (s.setRegs r).regs = r := rfl
@[simp] theorem State.setRegs_out (s : State) (r : Regs) : (s.setRegs r).out = s.out := rfl
@[simp] theorem State.setRegs_now (s : State) (r : Regs) : (s.setRegs r).now = s.now := rfl
@[simp] theorem State.setRegs_arrivals (s : State) (r : Regs) : (s.setRegs r).arrivals = s.arrivals := rfl
@[simp] theorem State.setRegs_undisciplined (s : State) (r : Regs) : (s.setRegs r).undisciplined = s.undisciplined := rfl
@[simp] theorem State.setRegs_freeIndex (s : State) (r : Regs) : (s.setRegs r).freeIndex = s.freeIndex := rfl

/-! `State.answer` -/

@[simp] theorem State.answer_cfg (s : State) (o : Out) : (s.answer o).cfg = s.cfg := rfl
@[simp] theorem State.answer_regs (s : State) (o : Out) : (s.answer o).regs = s.regs := rfl
@[simp] theorem State.answer_out (s : State) (o : Out) : (s.answer o).out = o := rfl
@[simp] theorem State.answer_now (s : State) (o : Out) : (s.answer o).now = s.now := rfl
@[simp] theorem State.answer_arrivals (s : State) (o : Out) : (s.answer o).arrivals = s.arrivals := rfl
@[simp] theorem State.answer_undisciplined (s : State) (o : Out) : (s.answer o).undisciplined = s.undisciplined := rfl
@[simp] theorem State.answer_freeIndex (s : State) (o : Out) : (s.answer o).freeIndex = s.freeIndex := rfl

/-! `State.trustTime` -/

@[simp] theorem State.trustTime_cfg (s : State) : s.trustTime.cfg = s.cfg := rfl
@[simp] theorem State.trustTime_regs (s : State) : s.trustTime.regs = s.regs := rfl
@[simp] theorem State.trustTime_out (s : State) : s.trustTime.out = s.out := rfl
@[simp] theorem State.trustTime_now (s : State) : s.trustTime.now = s.now := rfl
@[simp] theorem State.trustTime_arrivals (s : State) : s.trustTime.arrivals = s.arrivals := rfl
@[simp] theorem State.trustTime_undisciplined (s : State) : s.trustTime.undisciplined = false := rfl
@[simp] theorem State.trustTime_freeIndex (s : State) : s.trustTime.freeIndex = s.freeIndex := rfl

/-! `State.cmdError` -/

@[simp] theorem State.cmdError_cfg (s : State) : s.cmdError.cfg = s.cfg := rfl
@[simp] theorem State.cmdError_regs (s : State) : s.cmdError.regs = s.regs := rfl
@[simp] theorem State.cmdError_out (s : State) : s.cmdError.out = Out.cmdError := rfl
@[simp] theorem State.cmdError_now (s : State) : s.cmdError.now = s.now := rfl
@[simp] theorem State.cmdError_arrivals (s : State) : s.cmdError.arrivals = s.arrivals := rfl
@[simp] theorem State.cmdError_undisciplined (s : State) : s.cmdError.undisciplined = s.undisciplined := rfl
@[simp] theorem State.cmdError_freeIndex (s : State) : s.cmdError.freeIndex = s.freeIndex := rfl

/-! `State.reject` -/

@[simp] theorem State.reject_cfg (s : State) : s.reject.cfg = s.cfg := rfl
@[simp] theorem State.reject_regs (s : State) : s.reject.regs = s.regs := rfl
@[simp] theorem State.reject_out (s : State) : s.reject.out = Out.rejected := rfl
@[simp] theorem State.reject_now (s : State) : s.reject.now = s.now := rfl
@[simp] theorem State.reject_arrivals (s : State) : s.reject.arrivals = s.arrivals := rfl
@[simp] theorem State.reject_undisciplined (s : State) : s.reject.undisciplined = s.undisciplined := rfl
@[simp] theorem State.reject_freeIndex (s : State) : s.reject.freeIndex = s.freeIndex := rfl

/-! `State.ignore` -/

@[simp] theorem State.ignore_cfg (s : State) : s.ignore.cfg = s.cfg := rfl
@[simp] theorem State.ignore_regs (s : State) : s.ignore.regs = s.regs := rfl
@[simp] theorem State.ignore_out (s : State) : s.ignore.out = Out.default := rfl
@[simp] theorem State.ignore_now (s : State) : s.ignore.now = s.now := rfl
@[simp] theorem State.ignore_arrivals (s : State) : s.ignore.arrivals = s.arrivals := rfl
@[simp] theorem State.ignore_undisciplined (s : State) : s.ignore.undisciplined = s.undisciplined := rfl
@[simp] theorem State.ignore_freeIndex (s : State) : s.ignore.freeIndex = s.freeIndex := rfl

/-! `State.fault` -/

@[simp] theorem State.fault_cfg (s : State) (c : FaultCause) : (s.fault c).cfg = s.cfg := rfl
@[simp] theorem State.fault_regs (s : State) (c : FaultCause) : (s.fault c).regs = s.regs.setStatus .responseInvalid := rfl
@[simp] theorem State.fault_out (s : State) (c : FaultCause) : (s.fault c).out = Out.default := rfl
@[simp] theorem State.fault_now (s : State) (c : FaultCause) : (s.fault c).now = s.now := rfl
@[simp] theorem State.fault_arrivals (s : State) (c : FaultCause) : (s.fault c).arrivals = s.arrivals := rfl
@[simp] theorem State.fault_undisciplined (s : State) (c : FaultCause) : (s.fault c).undisciplined = s.undisciplined := rfl
@[simp] theorem State.fault_freeIndex (s : State) (c : FaultCause) : (s.fault c).freeIndex = s.freeIndex := rfl

/-! `State.report` -/

@[simp] theorem State.report_cfg (s : State) (v : Word32) (x : RespStatus) : (s.report v x).cfg = s.cfg := rfl
@[simp] theorem State.report_regs (s : State) (v : Word32) (x : RespStatus) : (s.report v x).regs = s.regs.complete v x s.now := rfl
@[simp] theorem State.report_out (s : State) (v : Word32) (x : RespStatus) : (s.report v x).out = Out.report v x := rfl
@[simp] theorem State.report_now (s : State) (v : Word32) (x : RespStatus) : (s.report v x).now = s.now := rfl
@[simp] theorem State.report_arrivals (s : State) (v : Word32) (x : RespStatus) : (s.report v x).arrivals = s.arrivals := rfl
@[simp] theorem State.report_undisciplined (s : State) (v : Word32) (x : RespStatus) : (s.report v x).undisciplined = false := rfl
@[simp] theorem State.report_freeIndex (s : State) (v : Word32) (x : RespStatus) : (s.report v x).freeIndex = s.freeIndex := rfl

/-! `State.codec` -/

@[simp] theorem State.codec_cfg (s : State) (o : Out) : (s.codec o).cfg = s.preStep.cfg := rfl
@[simp] theorem State.codec_regs (s : State) (o : Out) : (s.codec o).regs = s.preStep.regs := rfl
@[simp] theorem State.codec_out (s : State) (o : Out) : (s.codec o).out = o := rfl
@[simp] theorem State.codec_now (s : State) (o : Out) : (s.codec o).now = s.preStep.now := rfl
@[simp] theorem State.codec_arrivals (s : State) (o : Out) : (s.codec o).arrivals = s.preStep.arrivals := rfl
@[simp] theorem State.codec_undisciplined (s : State) (o : Out) : (s.codec o).undisciplined = s.preStep.undisciplined := rfl
@[simp] theorem State.codec_freeIndex (s : State) (o : Out) : (s.codec o).freeIndex = s.preStep.freeIndex := rfl

/-! `State.accept` -/

@[simp] theorem State.accept_cfg (s : State) (t : Nat) (q : List Arrival) : (s.accept t q).cfg = s.cfg := rfl
@[simp] theorem State.accept_regs (s : State) (t : Nat) (q : List Arrival) : (s.accept t q).regs = s.regs := rfl
@[simp] theorem State.accept_out (s : State) (t : Nat) (q : List Arrival) : (s.accept t q).out = s.out := rfl
@[simp] theorem State.accept_now (s : State) (t : Nat) (q : List Arrival) : (s.accept t q).now = stamp s.cfg.tsW t := rfl
@[simp] theorem State.accept_arrivals (s : State) (t : Nat) (q : List Arrival) : (s.accept t q).arrivals = q := rfl
@[simp] theorem State.accept_undisciplined (s : State) (t : Nat) (q : List Arrival) : (s.accept t q).undisciplined = (s.undisciplined || (s.exchangeOpen && s.breaksDiscipline (stamp s.cfg.tsW t))) := rfl
@[simp] theorem State.accept_freeIndex (s : State) (t : Nat) (q : List Arrival) : (s.accept t q).freeIndex = s.freeIndex + 1 := rfl

/-! `State.hardwareReset` -/

@[simp] theorem State.hardwareReset_cfg (s : State) (q : List Arrival) : (s.hardwareReset q).cfg = s.cfg := rfl
@[simp] theorem State.hardwareReset_regs (s : State) (q : List Arrival) : (s.hardwareReset q).regs = Regs.reset := rfl
@[simp] theorem State.hardwareReset_out (s : State) (q : List Arrival) : (s.hardwareReset q).out = Out.default := rfl
@[simp] theorem State.hardwareReset_now (s : State) (q : List Arrival) : (s.hardwareReset q).now = s.now := rfl
@[simp] theorem State.hardwareReset_arrivals (s : State) (q : List Arrival) : (s.hardwareReset q).arrivals = q := rfl
@[simp] theorem State.hardwareReset_undisciplined (s : State) (q : List Arrival) : (s.hardwareReset q).undisciplined = false := rfl
@[simp] theorem State.hardwareReset_freeIndex (s : State) (q : List Arrival) : (s.hardwareReset q).freeIndex = s.freeIndex := rfl

end Sys2Proof.Machine
end

