-- ==== Sys2Proof/Laws/Time.lean ====
section
/-! SUPPORT. The laws of modular time (00_scope.md R14). -/

namespace Sys2Proof.Machine

theorem elapsed_lt (w : Nat) (t t0 : Nat) : elapsed w t t0 < 2 ^ w := Nat.mod_lt _ (Nat.two_pow_pos w)

theorem addTime_lt (w : Nat) (t : Nat) (d : Nat) : addTime w t d < 2 ^ w := Nat.mod_lt _ (Nat.two_pow_pos w)

theorem stamp_lt (w : Nat) (t : Nat) : stamp w t < 2 ^ w := Nat.mod_lt _ (Nat.two_pow_pos w)

/-- `elapsed` is the non-negative remainder of the difference. -/
theorem elapsed_cast (w : Nat) (t t0 : Nat) : (elapsed w t t0 : Int) = ((t : Int) - t0) % (2 : Int) ^ w := by
  have h : t0 % 2 ^ w ≤ 2 ^ w := (Nat.mod_lt _ (Nat.two_pow_pos w)).le
  unfold elapsed
  push_cast [Nat.cast_sub h]
  rw [show (t : Int) + (2 ^ w - (t0 : Int) % 2 ^ w) = t - (t0 : Int) % 2 ^ w + 2 ^ w by ring, Int.add_emod_right,
    Int.sub_emod, Int.emod_emod, ← Int.sub_emod]

/-- Two times of the same elapsed time, as integers. -/
theorem elapsed_eq_of_cast {w : Nat} {t t0 : Nat} {d : Nat}
    (h : ((t : Int) - t0) % (2 : Int) ^ w = d) : elapsed w t t0 = d := by
  have := elapsed_cast w t t0
  rw [h] at this
  exact_mod_cast this

@[simp] theorem elapsed_stamp (w : Nat) (t t0 : Nat) : elapsed w (stamp w t) t0 = elapsed w t t0 := by
  unfold elapsed stamp
  rw [Nat.add_mod, Nat.mod_mod, ← Nat.add_mod]

@[simp] theorem elapsed_stamp_right (w : Nat) (t t0 : Nat) : elapsed w t (stamp w t0) = elapsed w t t0 := by
  unfold elapsed stamp
  rw [Nat.mod_mod]

/-- `d` microseconds after `t0`, `d` have elapsed, if `d` fits a timestamp. -/
theorem elapsed_add {w d : Nat} (t0 : Nat) (h : d < 2 ^ w) : elapsed w (t0 + d) t0 = d := by
  apply elapsed_eq_of_cast
  push_cast
  rw [add_sub_cancel_left]
  exact Int.emod_eq_of_lt (by positivity) (by exact_mod_cast h)

theorem elapsed_addTime {w d : Nat} (t0 : Nat) (h : d < 2 ^ w) : elapsed w (addTime w t0 d) t0 = d :=
  (elapsed_stamp w (t0 + d) t0).trans (elapsed_add t0 h)

@[simp] theorem elapsed_self (w : Nat) (t : Nat) : elapsed w t t = 0 := by
  simpa using elapsed_add t (Nat.two_pow_pos w)

/-- Elapsed times add up, modulo the width. -/
theorem elapsed_trans (w : Nat) (a b c : Nat) :
    elapsed w a c = (elapsed w a b + elapsed w b c) % 2 ^ w := by
  have ha := elapsed_cast w a c
  have : ((elapsed w a b + elapsed w b c : Nat) : Int) % 2 ^ w = ((a : Int) - c) % 2 ^ w := by
    push_cast
    rw [elapsed_cast, elapsed_cast, ← Int.add_emod]
    congr 1
    ring
  have h2 : ((2 : Int) ^ w) = ((2 ^ w : Nat) : Int) := by push_cast; rfl
  rw [h2] at this ha
  rw [← ha] at this
  exact_mod_cast this.symm

theorem elapsed_trans_of_lt {w : Nat} {a b c : Nat} (h : elapsed w a b + elapsed w b c < 2 ^ w) :
    elapsed w a c = elapsed w a b + elapsed w b c := by
  rw [elapsed_trans w a b c, Nat.mod_eq_of_lt h]

end Sys2Proof.Machine
end

