-- ==== Sys2Proof/Laws/Ops.lean ====
section
/-! SUPPORT. What each shared operation can do: the transmit-completion pre-step and the presentation of events. -/

namespace Sys2Proof.Machine

/-! ## Shifting a bit in (42_receiver.md R211) -/

/-- Shifting a bit in doubles and adds it. -/
theorem shiftIn_toNat (v : Word32) (b : Bit) : (shiftIn v b).toNat = (2 * v.toNat + b.toNat) % 2 ^ 32 := by
  have hb : b.toNat < 2 ^ 1 := b.isLt
  have e : (v.toNat * 2) % 2 ^ 32 = (v.toNat % 2 ^ 31) <<< 1 := by rw [Nat.shiftLeft_eq]; omega
  unfold shiftIn
  rw [BitVec.toNat_or, BitVec.toNat_shiftLeft, BitVec.zeroExtend_eq_setWidth, BitVec.toNat_setWidth, Nat.mod_eq_of_lt (a := b.toNat) (by omega),
    Nat.shiftLeft_eq, e, ← Nat.shiftLeft_add_eq_or_of_lt hb, Nat.shiftLeft_eq]
  omega

namespace State

variable (s : State)

/-! ## The pre-step (41_transceiver_ops.md R150) -/

theorem preStep_of_sent (h : s.sent = true) : s.preStep = s.setRegs (s.regs.enter s.afterSending s.txEnd) := by
  simp [preStep, h]

theorem preStep_of_not_sent (h : s.sent = false) : s.preStep = s := by
  simp [preStep, h]

/-- Everything the pre-step can do. -/
theorem preStep_cases :
    (s.sent = true ∧ s.regs.status = .requestSending ∧ 34 * s.cfg.tBit ≤ s.sinceStart ∧
      s.preStep = s.setRegs (s.regs.enter s.afterSending s.txEnd)) ∨ (s.sent = false ∧ s.preStep = s) := by
  by_cases h : s.sent = true
  · have h' := h
    simp only [sent, Bool.and_eq_true, decide_eq_true_eq] at h'
    exact .inl ⟨h, h'.1, h'.2, s.preStep_of_sent h⟩
  · exact .inr ⟨by simpa using h, s.preStep_of_not_sent (by simpa using h)⟩

theorem sent_eq_false_of_status (h : s.regs.status ≠ .requestSending) : s.sent = false := by
  simp [sent, h]

theorem preStep_of_status (h : s.regs.status ≠ .requestSending) : s.preStep = s :=
  s.preStep_of_not_sent (s.sent_eq_false_of_status h)

@[simp] theorem preStep_cfg : s.preStep.cfg = s.cfg := by unfold preStep; split <;> rfl
@[simp] theorem preStep_out : s.preStep.out = s.out := by unfold preStep; split <;> rfl
@[simp] theorem preStep_now : s.preStep.now = s.now := by unfold preStep; split <;> rfl
@[simp] theorem preStep_arrivals : s.preStep.arrivals = s.arrivals := by unfold preStep; split <;> rfl
@[simp] theorem preStep_undisciplined : s.preStep.undisciplined = s.undisciplined := by unfold preStep; split <;> rfl
@[simp] theorem preStep_freeIndex : s.preStep.freeIndex = s.freeIndex := by unfold preStep; split <;> rfl

/-- The pre-step writes `status` and `tRef` and nothing else. -/
theorem preStep_regs : s.preStep.regs = s.regs.enter s.preStep.regs.status s.preStep.regs.tRef := by
  rcases s.preStep_cases with ⟨-, -, -, h⟩ | ⟨-, h⟩ <;> rw [h] <;> rfl

@[simp] theorem preStep_role : s.preStep.regs.role = s.regs.role := by rw [preStep_regs]; rfl
@[simp] theorem preStep_rxReg : s.preStep.regs.rxReg = s.regs.rxReg := by rw [preStep_regs]; rfl
@[simp] theorem preStep_bitIndex : s.preStep.regs.bitIndex = s.regs.bitIndex := by rw [preStep_regs]; rfl
@[simp] theorem preStep_boundarySeen : s.preStep.regs.boundarySeen = s.regs.boundarySeen := by rw [preStep_regs]; rfl
@[simp] theorem preStep_lastLevel : s.preStep.regs.lastLevel = s.regs.lastLevel := by rw [preStep_regs]; rfl
@[simp] theorem preStep_lastResponse : s.preStep.regs.lastResponse = s.regs.lastResponse := by rw [preStep_regs]; rfl
@[simp] theorem preStep_lastStatus : s.preStep.regs.lastStatus = s.regs.lastStatus := by rw [preStep_regs]; rfl
@[simp] theorem preStep_txFrame : s.preStep.regs.txFrame = s.regs.txFrame := by rw [preStep_regs]; rfl
@[simp] theorem preStep_txStart : s.preStep.regs.txStart = s.regs.txStart := by rw [preStep_regs]; rfl
@[simp] theorem preStep_txKind : s.preStep.regs.txKind = s.regs.txKind := by rw [preStep_regs]; rfl

theorem afterSending_ne : s.afterSending ≠ .requestSending := by
  unfold afterSending
  cases s.regs.txKind <;> simp

/-- Applying the pre-step again at the same time changes nothing. -/
@[simp] theorem preStep_preStep : s.preStep.preStep = s.preStep := by
  rcases s.preStep_cases with ⟨-, -, -, h⟩ | ⟨h', h⟩
  · rw [h]
    exact preStep_of_status _ (by simpa using s.afterSending_ne)
  · rw [h, h]

/-- While the host keeps the timestamp discipline, `d` is R14's elapsed time. -/
theorem timeSince_of_disciplined (h : s.undisciplined = false) (t t0 : Nat) :
    s.timeSince t t0 = elapsed s.cfg.tsW t t0 := by
  simp [timeSince, h]

theorem sinceRef_of_disciplined (h : s.undisciplined = false) :
    s.sinceRef = elapsed s.cfg.tsW s.now s.regs.tRef := s.timeSince_of_disciplined h _ _

theorem sinceStart_of_disciplined (h : s.undisciplined = false) :
    s.sinceStart = elapsed s.cfg.tsW s.now s.regs.txStart := s.timeSince_of_disciplined h _ _

/-- Disciplined or not, a time read is a timestamp difference. -/
theorem timeSince_lt (t t0 : Nat) : s.timeSince t t0 < 2 ^ s.cfg.tsW := by
  unfold timeSince
  split
  · exact Nat.mod_lt _ (Nat.two_pow_pos _)
  · exact elapsed_lt _ _ _

/-- An exchange is open in every state but three (70_reset_and_hazards.md R281). -/
theorem exchangeOpen_iff : s.exchangeOpen = true ↔
    s.regs.status ≠ .notInitialized ∧ s.regs.status ≠ .ready ∧ s.regs.status ≠ .delay := by
  unfold exchangeOpen
  cases s.regs.status <;> simp

/-- What an event's presentation does to the flag of the discipline. -/
theorem accept_undisciplined_iff (t : Nat) (q : List Arrival) : (s.accept t q).undisciplined = true ↔
    s.undisciplined = true ∨ s.exchangeOpen = true ∧
      (2 ^ (s.cfg.tsW - 1) ≤ elapsed s.cfg.tsW t s.now ∨ 2 ^ (s.cfg.tsW - 1) ≤ elapsed s.cfg.tsW t s.reference) := by
  simp [breaksDiscipline]

/-! ## PROCESS after the pre-step (41_transceiver_ops.md R163) -/

/-- Everything PROCESS can do after the pre-step. -/
theorem poll_cases :
    s.poll = s.ignore ∨
    (s.regs.status = .responseStartBit ∧ s.cfg.halfMax < s.sinceRef ∧ s.poll = s.fault .timing) ∨
    (s.regs.status = .responseReceiving ∧ s.cfg.bitMax < s.sinceRef ∧
      s.poll = s.fault (if s.regs.bitIndex = 32#6 then .framing else .timing)) ∨
    (s.regs.status = .responseWaiting ∧ s.cfg.respTimeout < s.sinceRef ∧ s.poll = s.report 0#32 .timeout) ∨
    (s.regs.status = .responseInvalid ∧ s.poll = s.report s.regs.rxReg .invalid) ∨
    (s.regs.status = .responseReady ∧ s.poll = s.report s.regs.rxReg .success) ∨
    (s.regs.status = .delay ∧ s.cfg.delayGap < s.sinceReport ∧
      s.poll = (s.setRegs (s.regs.enter .ready s.now)).answer Out.default) := by
  cases h : s.regs.status <;> simp only [poll, h, pollStartBit, pollReceiving, pollWaiting, pollDelay] <;>
    (try split) <;> simp_all

/-! ## EDGE after the pre-step (42_receiver.md R201) -/

/-- Everything an edge can do after the pre-step. -/
theorem onEdge_cases (l : Level) :
    s.onEdge l = s.ignore ∨
    ((s.regs.status = .responseWaiting ∨ s.regs.status = .responseStartBit ∨ s.regs.status = .responseReceiving) ∧
      ∃ c, s.onEdge l = s.fault c) ∨
    (s.regs.status = .ready ∧ s.regs.role = .slave ∧ l = .active ∧
      s.onEdge l = ((s.setRegs ((s.regs.startBit s.now).clearReception .active)).trustTime).answer Out.default) ∨
    (s.regs.status = .responseWaiting ∧ s.sinceRef ≤ s.cfg.respTimeout ∧ l = .active ∧
      s.onEdge l = (s.setRegs (s.regs.startBit s.now)).answer Out.default) ∨
    (s.regs.status = .responseStartBit ∧ s.inHalfWindow = true ∧ l = .idle ∧
      s.onEdge l = (s.setRegs (s.regs.beginData s.now)).answer Out.default) ∨
    (s.regs.status = .responseReceiving ∧ l ≠ s.regs.lastLevel ∧
      ((s.regs.boundarySeen = false ∧ s.inHalfWindow = true ∧
          s.onEdge l = (s.setRegs (s.regs.acceptBoundary l)).answer Out.default) ∨
        (s.inBitWindow = true ∧ s.regs.bitIndex < 32#6 ∧
          s.onEdge l = (s.setRegs (s.regs.acceptBit l s.now)).answer Out.default) ∨
        (s.inBitWindow = true ∧ s.regs.bitIndex = 32#6 ∧ l = .idle ∧
          s.onEdge l = (s.setRegs (s.regs.acceptStop s.now)).answer Out.default))) := by
  cases h : s.regs.status
  case ready => cases hr : s.regs.role <;> cases l <;> simp [onEdge, h, hr, edgeReadySlave]
  case responseWaiting =>
    by_cases hd : s.cfg.respTimeout < s.sinceRef <;> cases l <;> simp [onEdge, h, edgeWaiting, hd]
    exact .inr (.inr (Nat.le_of_not_lt hd))
  case responseStartBit =>
    by_cases hd : s.inHalfWindow = true <;> cases l <;> simp [onEdge, h, edgeStartBit, hd]
  case responseReceiving =>
    simp only [onEdge, h, edgeReceiving]
    by_cases h1 : l = s.regs.lastLevel
    · simp [h1]
    rw [if_neg h1]
    by_cases h2 : s.regs.boundarySeen = false ∧ s.inHalfWindow = true
    · simp [h1, h2]
    rw [if_neg h2]
    by_cases h3 : s.inBitWindow = true ∧ s.regs.bitIndex < 32#6
    · simp [h1, h3]
    rw [if_neg h3]
    by_cases h4 : s.inBitWindow = true ∧ s.regs.bitIndex = 32#6
    · cases l <;> simp [h1, h4, edgeStop]
    rw [if_neg h4]
    simp
  all_goals simp [onEdge, h]

end State

end Sys2Proof.Machine
end

