-- ==== Sys2Proof/Laws/Step.lean ====
section
/-! SUPPORT. What each command and each step can do. -/

namespace Sys2Proof.Machine

/-! ## The commands, by name -/

variable (s : State)

theorem exec_beginSession (role : Bit) : exec (.beginSession role) s =
    .next (s.preStep.openSession (roleOf role)) := rfl
theorem exec_endSession : exec (.endSession) s =
    .next s.preStep.closeSession := rfl
theorem exec_isReady : exec (.isReady) s =
    .next (s.preStep.answer (Out.bool (s.preStep.regs.status = .ready))) := rfl
theorem exec_sendRequestAsync (frame : Word32) : exec (.sendRequestAsync frame) s =
    .next (s.preStep.sendRequest frame) := rfl
theorem exec_sendResponse (frame : Word32) : exec (.sendResponse frame) s =
    .next (s.preStep.sendResponse frame) := rfl
theorem exec_process : exec (.process) s =
    .next s.preStep.poll := rfl
theorem exec_edge (pin : Bit) : exec (.edge pin) s =
    .next (s.preStep.onEdge (levelOfPin s.cfg pin)) := rfl
theorem exec_getLastResponse : exec (.getLastResponse) s =
    .next (s.preStep.answer (Out.value s.preStep.regs.lastResponse)) := rfl
theorem exec_getLastResponseStatus : exec (.getLastResponseStatus) s =
    .next (s.preStep.answer (Out.value (s.preStep.regs.lastStatus.code.zeroExtend 32))) := rfl
theorem exec_getStatus : exec (.getStatus) s =
    .next (s.preStep.answer (Out.value (s.preStep.regs.status.code.zeroExtend 32))) := rfl
theorem exec_buildRequest (type : BitVec 3) (id : BitVec 8) (value : BitVec 16) : exec (.buildRequest type id value) s =
    .next (if isMasterType type then s.codec (Out.value (withParity (content type id value))) else s.cmdError) := rfl
theorem exec_buildResponse (type : BitVec 3) (id : BitVec 8) (value : BitVec 16) : exec (.buildResponse type id value) s =
    .next (if isSlaveType type then s.codec (Out.value (withParity (content type id value))) else s.cmdError) := rfl
theorem exec_parity (frame : Word32) : exec (.parity frame) s =
    .next (s.codec (Out.bool (oddParity frame))) := rfl
theorem exec_getMessageType (frame : Word32) : exec (.getMessageType frame) s =
    .next (s.codec (Out.value ((messageType frame).zeroExtend 32))) := rfl
theorem exec_getDataId (frame : Word32) : exec (.getDataId frame) s =
    .next (s.codec (Out.value ((dataId frame).zeroExtend 32))) := rfl
theorem exec_isValidRequest (frame : Word32) : exec (.isValidRequest frame) s =
    .next (s.codec (Out.bool (validRequest frame))) := rfl
theorem exec_isValidResponse (frame : Word32) : exec (.isValidResponse frame) s =
    .next (s.codec (Out.bool (validResponse frame))) := rfl
theorem exec_getUint (frame : Word32) : exec (.getUint frame) s =
    .next (s.codec (Out.value ((dataValue frame).zeroExtend 32))) := rfl
theorem exec_getFloat (frame : Word32) : exec (.getFloat frame) s =
    .next (s.codec (Out.value (f88ToQ16 (dataValue frame)))) := rfl
theorem exec_temperatureToData (q : Word32) : exec (.temperatureToData q) s =
    .next (s.codec (Out.value ((q16ToF88 s.cfg q).zeroExtend 32))) := rfl

/-- Every command answers a next state. -/
theorem exec_total (i : Instr) : ∃ t, exec i s = .next t := by
  cases i <;> exact ⟨_, rfl⟩

/-! ## The steps -/

/-- An edge notification's word is the EDGE command (42_receiver.md R200). -/
@[simp] theorem decode_edgeWord (pin : Bit) : decode (edgeWord pin) = .ok (.edge pin) := by
  revert pin
  decide

variable {s}

theorem step_nothing (hc : s.cfg.legal = true) (h : s.arrivals = []) : step s = .next s := by
  simp [step, hc, State.fetch, h]

theorem step_reset (hc : s.cfg.legal = true) {rest : List Arrival} (h : s.arrivals = .reset :: rest) :
    step s = .next (s.hardwareReset rest) := by
  simp [step, hc, State.fetch, h]

theorem step_command (hc : s.cfg.legal = true) {t : Nat} {w : CommandWord} {rest : List Arrival} {i : Instr}
    (h : s.arrivals = .command t w :: rest) (hi : decode w = .ok i) : step s = exec i (s.accept t rest) := by
  simp [step, hc, State.fetch, h, hi]

theorem step_badCommand (hc : s.cfg.legal = true) {t : Nat} {w : CommandWord} {rest : List Arrival} {e : DecodeError}
    (h : s.arrivals = .command t w :: rest) (he : decode w = .error e) :
    step s = .next (s.accept t rest).cmdError := by
  simp [step, hc, State.fetch, h, he]

theorem step_edge (hc : s.cfg.legal = true) {t : Nat} {pin : Bit} {rest : List Arrival}
    (h : s.arrivals = .edge t pin :: rest) : step s = exec (.edge pin) (s.accept t rest) := by
  simp [step, hc, State.fetch, h]

theorem step_both (hc : s.cfg.legal = true) {t : Nat} {pin : Bit} {w : CommandWord} {rest : List Arrival}
    (h : s.arrivals = .both t pin w :: rest) :
    step s = exec (.edge pin) (s.accept t (.command t w :: rest)) := by
  simp [step, hc, State.fetch, h]

theorem step_illegal (hc : s.cfg.legal = false) : step s = .refused .illegalParameters := by
  simp [step, hc]

/-- Everything a step that answers a next state can be. -/
theorem step_cases {t : State} (h : step s = .next t) :
    s.cfg.legal = true ∧
      (t = s ∨ (∃ rest, t = s.hardwareReset rest) ∨
        ∃ now rest, (∃ i, exec i (s.accept now rest) = .next t) ∨ t = (s.accept now rest).cmdError) := by
  by_cases hc : s.cfg.legal = true
  case neg => simp [step, hc] at h
  refine ⟨hc, ?_⟩
  rcases ha : s.arrivals with _ | ⟨a, rest⟩
  · rw [step_nothing hc ha] at h
    exact .inl (by simpa using h.symm)
  cases a with
  | reset =>
    rw [step_reset hc ha] at h
    exact .inr (.inl ⟨rest, by simpa using h.symm⟩)
  | edge now pin =>
    rw [step_edge hc ha] at h
    exact .inr (.inr ⟨now, rest, .inl ⟨_, h⟩⟩)
  | both now pin w =>
    rw [step_both hc ha] at h
    exact .inr (.inr ⟨now, _, .inl ⟨_, h⟩⟩)
  | command now w =>
    cases hw : decode w with
    | ok i =>
      rw [step_command hc ha hw] at h
      exact .inr (.inr ⟨now, rest, .inl ⟨i, h⟩⟩)
    | error e =>
      rw [step_badCommand hc ha hw] at h
      exact .inr (.inr ⟨now, rest, .inr (by simpa using h.symm)⟩)

/-- The Boolean test of a parameter set is 00_scope.md R9's list. -/
theorem legal_iff (c : Params) : c.legal = true ↔ c.Legal := by
  constructor
  · intro h
    simp only [Params.legal, Bool.and_eq_true, decide_eq_true_eq] at h
    obtain ⟨⟨⟨⟨⟨⟨⟨⟨⟨⟨h1, h2⟩, h3⟩, h4⟩, h5⟩, h6⟩, h7⟩, h8⟩, h9⟩, h10⟩, h11⟩ := h
    exact ⟨h1, h2, h3, h4, h5, h6, h7, h8, h9, h10, h11⟩
  · rintro ⟨h1, h2, h3, h4, h5, h6, h7, h8, h9, h10, h11⟩
    simp [Params.legal, *]

end Sys2Proof.Machine
end

