-- ==== Sys2Proof/Laws/Frame.lean ====
section
/-! SUPPORT. What no command changes, and what EDGE answers. -/

namespace Sys2Proof.Machine

namespace State

variable (s : State)

/-- PROCESS leaves the setting. -/
theorem sameSetting_poll : s.SameSetting s.preStep.poll := by
  rcases s.preStep.poll_cases with h | ⟨-, -, h⟩ | ⟨-, -, h⟩ | ⟨-, -, h⟩ | ⟨-, h⟩ | ⟨-, h⟩ | ⟨-, -, h⟩ <;> rw [h] <;>
    constructor <;> simp

/-- EDGE leaves the setting. -/
theorem sameSetting_onEdge (l : Level) : s.SameSetting (s.preStep.onEdge l) := by
  rcases s.preStep.onEdge_cases l with h | ⟨-, _, h⟩ | ⟨-, -, -, h⟩ | ⟨-, -, -, h⟩ | ⟨-, -, -, h⟩ |
    ⟨-, -, ⟨-, -, h⟩ | ⟨-, -, h⟩ | ⟨-, -, -, h⟩⟩ <;> rw [h] <;> constructor <;> simp

/-- EDGE's outputs are always the defaults (42_receiver.md R200). -/
theorem onEdge_out (l : Level) : (s.onEdge l).out = Out.default := by
  rcases s.onEdge_cases l with h | ⟨-, _, h⟩ | ⟨-, -, -, h⟩ | ⟨-, -, -, h⟩ | ⟨-, -, -, h⟩ |
    ⟨-, -, ⟨-, -, h⟩ | ⟨-, -, h⟩ | ⟨-, -, -, h⟩⟩ <;> rw [h] <;> rfl

theorem sameSetting_openSession (x : Role) : s.SameSetting (s.preStep.openSession x) := by
  unfold openSession
  split <;> constructor <;> simp

theorem sameSetting_sendRequest (f : Word32) : s.SameSetting (s.preStep.sendRequest f) := by
  unfold sendRequest
  split <;> constructor <;> simp

theorem sameSetting_sendResponse (f : Word32) : s.SameSetting (s.preStep.sendResponse f) := by
  unfold sendResponse
  split <;> constructor <;> simp

theorem sameSetting_answer (o : Out) : s.SameSetting (s.preStep.answer o) := by constructor <;> simp

theorem sameSetting_cmdError : s.SameSetting s.cmdError := by constructor <;> rfl

end State

/-- No command changes the configuration, the time, the events still to come or the free index. -/
theorem exec_sameSetting {i : Instr} {s t : State} (h : exec i s = .next t) : s.SameSetting t := by
  cases i <;> cases h
  case beginSession => exact s.sameSetting_openSession _
  case endSession => constructor <;> simp [State.closeSession]
  case sendRequestAsync => exact s.sameSetting_sendRequest _
  case sendResponse => exact s.sameSetting_sendResponse _
  case process => exact s.sameSetting_poll
  case edge => exact s.sameSetting_onEdge _
  case buildRequest =>
    split
    · exact s.sameSetting_answer _
    · exact s.sameSetting_cmdError
  case buildResponse =>
    split
    · exact s.sameSetting_answer _
    · exact s.sameSetting_cmdError
  all_goals exact s.sameSetting_answer _

/-- No step changes the configuration. -/
theorem step_cfg {s t : State} (h : step s = .next t) : t.cfg = s.cfg := by
  obtain ⟨-, rfl | ⟨_, rfl⟩ | ⟨_, _, ⟨_, he⟩ | rfl⟩⟩ := step_cases h
  · rfl
  · rfl
  · exact (exec_sameSetting he).cfg
  · rfl

end Sys2Proof.Machine
end

