-- ==== Sys2Proof/Laws/Line.lean ====
section
/-! SUPPORT. The laws of the wire sequence and of the waveform's levels (41_transceiver_ops.md R159, R160; 42_receiver.md
R200). -/

namespace Sys2Proof.Machine

@[simp] theorem levelOfPin_pinOfLevel (c : Params) (l : Level) : levelOfPin c (pinOfLevel c l) = l := by
  cases l
  · have : ~~~c.rxIdlePin ≠ c.rxIdlePin := by generalize c.rxIdlePin = p; revert p; decide
    simp [levelOfPin, pinOfLevel, this]
  · simp [levelOfPin, pinOfLevel]

theorem wireBits_length (f : Word32) : (wireBits f).length = 34 := by simp [wireBits]

theorem wireBits_getElem? (f : Word32) {k : Nat} (h : k < 34) : (wireBits f)[k]? = some (wireBit f k) := by
  unfold wireBit
  rw [List.getD_eq_getElem?_getD, List.getElem?_eq_getElem (by rw [wireBits_length]; exact h)]
  rfl

@[simp] theorem wireBit_start (f : Word32) : wireBit f 0 = true := rfl

theorem wireBit_data (f : Word32) {j : Nat} (h : j < 32) : wireBit f (j + 1) = f.getLsbD (31 - j) := by
  simp [wireBit, wireBits, List.getElem?_append, h]

@[simp] theorem wireBit_stop (f : Word32) : wireBit f 33 = true := by
  simp [wireBit, wireBits]

theorem halfLevel_even (f : Word32) (k : Nat) : halfLevel f (2 * k) = firstHalf (wireBit f k) := by
  simp [halfLevel]

theorem halfLevel_odd (f : Word32) (k : Nat) : halfLevel f (2 * k + 1) = secondHalf (wireBit f k) := by
  rw [halfLevel, if_neg (by omega), show (2 * k + 1) / 2 = k by omega]

theorem firstHalf_eq_secondHalf {a b : Bool} : firstHalf a = secondHalf b ↔ a ≠ b := by
  cases a <;> cases b <;> decide
end Sys2Proof.Machine
end

