-- ==== Sys2Proof/Laws/Loop.lean ====
section
/-! SUPPORT. The laws of the SEND_REQUEST loop (30_encoding.md R96; 41_transceiver_ops.md R171). -/

namespace Sys2Proof.Machine

/-- Ticks that make no report carry the loop on to the ticks after them. -/
theorem pollLoop_append {ticks : List Tick} {v u : State} (more : List Tick) (h : quietRun ticks v = some u) :
    pollLoop (ticks ++ more) v = pollLoop more u := by
  induction ticks generalizing v with
  | nil =>
    cases h
    rfl
  | cons e es ih =>
    simp only [quietRun] at h
    simp only [List.cons_append, pollLoop]
    cases hs : step (v.present e.arrival) with
    | next t =>
      rw [hs] at h
      cases hd : t.out.done <;> simp [hd] at h ⊢
      exact ih h
    | fault r => cases r
    | refused r =>
      rw [hs] at h
      cases h

/-- A quiet run keeps the configuration. -/
theorem quietRun_cfg {ticks : List Tick} {v u : State} (h : quietRun ticks v = some u) : u.cfg = v.cfg := by
  induction ticks generalizing v with
  | nil =>
    cases h
    rfl
  | cons e es ih =>
    simp only [quietRun] at h
    cases hs : step (v.present e.arrival) with
    | next t =>
      rw [hs] at h
      cases hd : t.out.done <;> simp [hd] at h
      exact (ih h).trans (step_cfg (s := v.present e.arrival) hs)
    | fault r => cases r
    | refused r =>
      rw [hs] at h
      cases h

end Sys2Proof.Machine
end

