-- ==== Sys2Proof/Laws/PerInstr.lean ====
section
/-! SUPPORT. Facts made per constructor of Instr. The family RowOfWord: an instruction's encoded word carries its
row's opcode, and its operand field, in the places of 30_encoding.md R84. -/

namespace Sys2Proof.Laws.RowOfWord

/-- The word of `i` has the row's opcode in its top byte and `i`'s operand in its low half. -/
def Statement (i : Instr) : Prop :=
  opcodeByte (encode i) = i.opcode.code ∧ operandField (encode i) = i.operand

theorem of_fields (i : Instr) : Statement i := ⟨opcodeByte_word _ _, operandField_word _ _⟩

theorem beginSession (role : Bit) : Statement (.beginSession role) := of_fields _
theorem endSession : Statement (.endSession) := of_fields _
theorem isReady : Statement (.isReady) := of_fields _
theorem sendRequestAsync (frame : Word32) : Statement (.sendRequestAsync frame) := of_fields _
theorem sendResponse (frame : Word32) : Statement (.sendResponse frame) := of_fields _
theorem process : Statement (.process) := of_fields _
theorem edge (pin : Bit) : Statement (.edge pin) := of_fields _
theorem getLastResponse : Statement (.getLastResponse) := of_fields _
theorem getLastResponseStatus : Statement (.getLastResponseStatus) := of_fields _
theorem getStatus : Statement (.getStatus) := of_fields _
theorem buildRequest (type : BitVec 3) (id : BitVec 8) (value : BitVec 16) : Statement (.buildRequest type id value) := of_fields _
theorem buildResponse (type : BitVec 3) (id : BitVec 8) (value : BitVec 16) : Statement (.buildResponse type id value) := of_fields _
theorem parity (frame : Word32) : Statement (.parity frame) := of_fields _
theorem getMessageType (frame : Word32) : Statement (.getMessageType frame) := of_fields _
theorem getDataId (frame : Word32) : Statement (.getDataId frame) := of_fields _
theorem isValidRequest (frame : Word32) : Statement (.isValidRequest frame) := of_fields _
theorem isValidResponse (frame : Word32) : Statement (.isValidResponse frame) := of_fields _
theorem getUint (frame : Word32) : Statement (.getUint frame) := of_fields _
theorem getFloat (frame : Word32) : Statement (.getFloat frame) := of_fields _
theorem temperatureToData (q : Word32) : Statement (.temperatureToData q) := of_fields _

end Sys2Proof.Laws.RowOfWord
end

