-- ==== Sys2Proof/Machine/Assembler.lean ====
section
/-! DEFINITION. The assembler syntax (30_encoding.md R94, R95): a line of text gives one event, or is refused. The
readings the rules leave to the assembler are log entry 11. -/

namespace Sys2Proof.Machine

/-- The table's mnemonic of an opcode (30_encoding.md R86). -/
def mnemonicOf : Opcode → String
  | .BEGIN => "BEGIN"
  | .END => "END"
  | .IS_READY => "IS_READY"
  | .SEND_REQUEST_ASYNC => "SEND_REQUEST_ASYNC"
  | .SEND_RESPONSE => "SEND_RESPONSE"
  | .PROCESS => "PROCESS"
  | .EDGE => "EDGE"
  | .GET_LAST_RESPONSE => "GET_LAST_RESPONSE"
  | .GET_LAST_RESPONSE_STATUS => "GET_LAST_RESPONSE_STATUS"
  | .GET_STATUS => "GET_STATUS"
  | .BUILD_REQUEST => "BUILD_REQUEST"
  | .BUILD_RESPONSE => "BUILD_RESPONSE"
  | .PARITY => "PARITY"
  | .GET_MESSAGE_TYPE => "GET_MESSAGE_TYPE"
  | .GET_DATA_ID => "GET_DATA_ID"
  | .IS_VALID_REQUEST => "IS_VALID_REQUEST"
  | .IS_VALID_RESPONSE => "IS_VALID_RESPONSE"
  | .GET_UINT => "GET_UINT"
  | .GET_FLOAT => "GET_FLOAT"
  | .TEMPERATURE_TO_DATA => "TEMPERATURE_TO_DATA"

/-! ## Tokens -/

/-- A word or a comma of a line. -/
inductive Token where
  | word (text : List Char)
  | comma
deriving DecidableEq, Repr

/-- The word gathered so far (in reverse), if there is one. -/
def flushWord (gathered : List Char) : List Token :=
  if gathered = [] then [] else [.word gathered.reverse]

/-- The tokens of a line, less its comment. -/
def tokens : List Char → List Char → List Token
  | [], gathered => flushWord gathered
  | c :: cs, gathered =>
    if c = ';' then flushWord gathered
    else if c = ' ' ∨ c = '\t' then flushWord gathered ++ tokens cs []
    else if c = ',' then flushWord gathered ++ .comma :: tokens cs []
    else tokens cs (c :: gathered)

/-- The operands of a line: nothing, or words with a comma between each two. -/
def operandWords : List Token → Option (List (List Char))
  | [] => some []
  | [.word t] => some [t]
  | .word t :: .comma :: rest =>
    match operandWords rest with
    | some (u :: us) => some (t :: u :: us)
    | _ => none
  | _ => none

/-! ## Numbers -/

/-- The value of a decimal or hexadecimal digit below `base`. -/
def digitValue (base : Nat) (c : Char) : Option Nat :=
  let v := if '0' ≤ c ∧ c ≤ '9' then c.toNat - 48
    else if 'a' ≤ c ∧ c ≤ 'f' then c.toNat - 87
    else if 'A' ≤ c ∧ c ≤ 'F' then c.toNat - 55 else base
  if v < base then some v else none

/-- The value of a digit string read after the digits of value `acc`. -/
def digitsFrom (base : Nat) : List Char → Nat → Option Nat
  | [], acc => some acc
  | c :: cs, acc => (digitValue base c).bind fun v => digitsFrom base cs (acc * base + v)

/-- The value of a digit string that is not empty. -/
def digits (base : Nat) (cs : List Char) : Option Nat := if cs = [] then none else digitsFrom base cs 0

/-- A number, `0x...` in hexadecimal or decimal. -/
def number : List Char → Option Nat
  | '0' :: 'x' :: cs => digits 16 cs
  | cs => digits 10 cs

/-- A number below `2 ^ n`. -/
def field (n : Nat) (cs : List Char) : Option (BitVec n) :=
  (number cs).bind fun v => if v < 2 ^ n then some (BitVec.ofNat n v) else none

/-- `round(value * 65536)` of a decimal number with a fractional part, where that is exact and fits. -/
def fraction (cs : List Char) : Option Word32 :=
  let negative := cs.head? = some '-'
  let body := if negative then cs.drop 1 else cs
  let whole := body.takeWhile (· ≠ '.')
  let part := (body.dropWhile (· ≠ '.')).drop 1
  (digits 10 whole).bind fun n => (digits 10 part).bind fun p =>
    let scale := 10 ^ part.length
    let scaled := (n * scale + p) * 65536
    let q : Int := if negative then -((scaled / scale : Nat) : Int) else (scaled / scale : Nat)
    if scaled % scale = 0 ∧ -2147483648 ≤ q ∧ q < 2147483648 then some (BitVec.ofInt 32 q) else none

/-! ## Operands (R95) -/

/-- The message-type names of 30_encoding.md R81, with `RESERVED` for 3. -/
def typeNames : List (String × BitVec 3) :=
  [("READ_DATA", 0#3), ("WRITE_DATA", 1#3), ("INVALID_DATA", 2#3), ("RESERVED", 3#3)] ++
  [("READ_ACK", 4#3), ("WRITE_ACK", 5#3), ("DATA_INVALID", 6#3), ("UNKNOWN_DATA_ID", 7#3)]

/-- A message type by name or code. -/
def typeOperand (cs : List Char) : Option (BitVec 3) :=
  match typeNames.find? fun e => e.1.toList = cs with
  | some e => some e.2
  | none => field 3 cs

/-- A role by name. -/
def roleOperand (cs : List Char) : Option Bit :=
  if cs = "MASTER".toList then some 0#1 else if cs = "SLAVE".toList then some 1#1 else none

/-- The operand field of a line, by the opcode's format (R94). -/
def operandsOf (op : Opcode) (ws : List (List Char)) : Option Word32 :=
  match op.format, ws with
  | .N, [] => some operandN
  | .F, [f] => field 32 f
  | .T, [q] => if q.contains '.' then fraction q else field 32 q
  | .L, [b] => ((if op = .BEGIN then roleOperand b else field 1 b)).map operandL
  | .B, [t, id, v] =>
    (typeOperand t).bind fun t => (field 8 id).bind fun id => (field 16 v).map fun v => operandB t id v
  | _, _ => none

/-- One line of assembler text: its timestamp and command word; none where the line is refused (R94). -/
def assemble (line : List Char) : Option (Nat × CommandWord) :=
  match tokens line [] with
  | .word ('@' :: t) :: .word m :: rest =>
    (number t).bind fun now =>
      (Opcode.all.find? fun op => (mnemonicOf op).toList = m).bind fun op =>
        (operandWords rest).bind fun ws => (operandsOf op ws).map fun w => (now, op.code ++ 0#24 ++ w)
  | _ => none

end Sys2Proof.Machine
end

