-- ==== Sys2Proof/Tests/Slice0.lean ====
section
/-! SUPPORT. The model's own tests. Expected values are those of spec/95_test_vectors.md (V below), of the encoding
tables of 30_encoding.md and of the rules named; the parameters are 00_scope.md R8's unless a test says otherwise. The
theorems `test_meets_…` show a concrete input that meets every hypothesis of the statement of that name. -/

namespace Sys2Proof.Machine.Tests

/-- A state with these registers, at this time. -/
def at_ (now : Nat) (r : Regs) : State := { State.reset with regs := r, now := now }

/-- The outputs and the registers after a step. -/
def outcome : Result → Option (Out × Regs)
  | .next t => some (t.out, t.regs)
  | .fault _ => none
  | .refused _ => none

/-- The command's outputs in this state. -/
def outs (i : Instr) (s : State) : Option Out := (outcome (exec i s)).map (·.1)

/-- The registers after the command in this state. -/
def regs (i : Instr) (s : State) : Option Regs := (outcome (exec i s)).map (·.2)

/-- The instruction of a word written out. -/
def read (w : CommandWord) : Option Instr := (decode w).toOption

/-- The state of V3.2 right after `@1000 SEND_REQUEST_ASYNC 0x0`, and after `SEND_RESPONSE`. -/
def sending (k : TxKind) : Regs := { Regs.reset with status := .requestSending, txStart := 1000, txKind := k }

/-- READY since 10. -/
def ready (role : Role) : Regs := { Regs.reset with status := .ready, role := role, tRef := 10 }

/-- V3.3's W. -/
def waiting : Regs := { Regs.reset with status := .responseWaiting, tRef := 35000, txStart := 1000 }

/-- W after `@55000 EDGE 0`. -/
def startBit : Regs := { waiting with status := .responseStartBit, tRef := 55000, lastLevel := .active }

/-- V3.3's R. -/
def receiving : Regs := { waiting with status := .responseReceiving, tRef := 55500 }

/-- R after all 32 bits of 0x40000001, with the boundary edge before the stop bit. -/
def lastSlot : Regs :=
  { receiving with
    rxReg := 0x40000001#32, bitIndex := 32#6, boundarySeen := true, lastLevel := .active, tRef := 87500 }

/-- After the last edge of P2. -/
def complete : Regs := { lastSlot with status := .responseReady, boundarySeen := false, lastLevel := .idle, tRef := 88500 }

/-- DELAY since 95000. -/
def delay (role : Role) : Regs :=
  { complete with
    status := .delay, role := role, tRef := 95000, lastResponse := 0x40000001#32, lastStatus := .success }

/-! ## Decoding: words written out from 30_encoding.md R85 and R86, and V -/

theorem test_read_BEGIN : read 0x0100000000000001#64 = some (.beginSession 1#1) := by decide
theorem test_read_END : read 0x0200000000000000#64 = some .endSession := by decide
theorem test_read_IS_READY : read 0x0300000000000000#64 = some .isReady := by decide
theorem test_read_SEND_REQUEST_ASYNC : read 0x0400000040000001#64 = some (.sendRequestAsync 0x40000001#32) := by decide
theorem test_read_SEND_RESPONSE : read 0x0500000040000001#64 = some (.sendResponse 0x40000001#32) := by decide
theorem test_read_PROCESS : read 0x0600000000000000#64 = some .process := by decide
theorem test_read_EDGE : read 0x0700000000000001#64 = some (.edge 1#1) := by decide
theorem test_read_GET_LAST_RESPONSE : read 0x0800000000000000#64 = some .getLastResponse := by decide
theorem test_read_GET_LAST_RESPONSE_STATUS : read 0x0900000000000000#64 = some .getLastResponseStatus := by decide
theorem test_read_GET_STATUS : read 0x0A00000000000000#64 = some .getStatus := by decide
theorem test_read_BUILD_REQUEST : read 0x1000000010011580#64 = some (.buildRequest 1#3 0x01#8 0x1580#16) := by decide
theorem test_read_BUILD_RESPONSE : read 0x1100000070800000#64 = some (.buildResponse 7#3 0x80#8 0#16) := by decide
theorem test_read_PARITY : read 0x1200000080000000#64 = some (.parity 0x80000000#32) := by decide
theorem test_read_GET_MESSAGE_TYPE : read 0x1300000010011580#64 = some (.getMessageType 0x10011580#32) := by decide
theorem test_read_GET_DATA_ID : read 0x1400000010011580#64 = some (.getDataId 0x10011580#32) := by decide
theorem test_read_IS_VALID_REQUEST : read 0x1500000010011580#64 = some (.isValidRequest 0x10011580#32) := by decide
theorem test_read_IS_VALID_RESPONSE : read 0x1600000040000001#64 = some (.isValidResponse 0x40000001#32) := by decide
theorem test_read_GET_UINT : read 0x1700000040000001#64 = some (.getUint 0x40000001#32) := by decide
theorem test_read_GET_FLOAT : read 0x1800000010011580#64 = some (.getFloat 0x10011580#32) := by decide
theorem test_read_TEMPERATURE_TO_DATA : read 0x1900000000158000#64 = some (.temperatureToData 0x00158000#32) := by decide

/-- V2.6's reserved opcodes. -/
theorem test_read_reserved_opcodes :
    [0x0000000000000000#64, 0x0B00000000000000#64, 0x0F00000000000000#64, 0x1A00000000000000#64,
      0xFF00000000000000#64].map decode = List.replicate 5 (.error .reservedOpcode) := by decide

/-- V2.2's, V2.5's and V2.6's reserved bits. -/
theorem test_read_reserved_bits :
    [0x1200000100000000#64, 0x0100000000000002#64, 0x0600000000000001#64, 0x1000000001000000#64,
      0x1000000080000000#64, 0x1900000100000000#64].map decode = List.replicate 6 (.error .reservedBits) := by decide

/-! ## Well-formedness: each check refuses an ill-formed term -/

theorem test_wf_buildRequest : (Instr.buildRequest 3#3 0#8 0#16).wellFormed = false := by decide
theorem test_wf_buildResponse : (Instr.buildResponse 3#3 0#8 0#16).wellFormed = false := by decide
theorem test_wf_accepts : (Instr.buildRequest 2#3 0#8 0#16).wellFormed = true := by decide
theorem test_legal_standard : Params.standard.legal = true := by decide
theorem test_legal_tBit_even : ({ Params.standard with tBit := 1001 } : Params).legal = false := by decide
theorem test_legal_tBit_pos :
    ({ Params.standard with tBit := 0, halfMin := 0, bitMin := 0 } : Params).legal = false := by decide
theorem test_legal_halfMin_pos : ({ Params.standard with halfMin := 0 } : Params).legal = false := by decide
theorem test_legal_halfMin_le : ({ Params.standard with halfMin := 501 } : Params).legal = false := by decide
theorem test_legal_half_le : ({ Params.standard with halfMax := 499 } : Params).legal = false := by decide
theorem test_legal_disjoint : ({ Params.standard with halfMax := 900 } : Params).legal = false := by decide
theorem test_legal_bitMin_le : ({ Params.standard with bitMin := 1001 } : Params).legal = false := by decide
theorem test_legal_tBit_le : ({ Params.standard with bitMax := 999 } : Params).legal = false := by decide
theorem test_legal_frame_fits :
    ({ Params.standard with tsW := 16, respTimeout := 100, delayGap := 100 } : Params).legal = false := by decide
theorem test_legal_timeout_fits : ({ Params.standard with respTimeout := 2147483648 } : Params).legal = false := by decide
theorem test_legal_gap_fits : ({ Params.standard with delayGap := 2147483648 } : Params).legal = false := by decide

/-! ## The commands -/

/-- V3.1: `@10 BEGIN SLAVE` after reset. -/
theorem test_BEGIN : outcome (exec (.beginSession 1#1) (at_ 10 Regs.reset)) = some (Out.default, ready .slave) := by decide

/-- V3.1: `@12 BEGIN MASTER` in a READY slave is rejected. -/
theorem test_BEGIN_rejected :
    outcome (exec (.beginSession 0#1) (at_ 12 (ready .slave))) = some (Out.rejected, ready .slave) := by decide

/-- V3.1: END in RESPONSE_RECEIVING abandons the exchange without a report. -/
theorem test_END : outcome (exec .endSession (at_ 55700 receiving)) =
    some (Out.default, { receiving with status := .notInitialized }) := by decide

/-- P2: `IS_READY` in READY, and in DELAY (41_transceiver_ops.md R153). -/
theorem test_IS_READY :
    (outs .isReady (at_ 195002 (ready .master))).map (fun o => (o.res, o.ok)) = some (1#32, true) ∧
    (outs .isReady (at_ 95001 (delay .master))).map (fun o => (o.res, o.ok)) = some (0#32, false) := by decide

/-- V3.2: the transmission is over at 35000 and not at 34999. -/
theorem test_GET_STATUS :
    (outs .getStatus (at_ 34999 (sending .request))).map Out.res = some 3#32 ∧
    (outs .getStatus (at_ 35000 (sending .request))).map Out.res = some 4#32 := by decide

/-- V3.2: a transmission across the wrap of the timestamps. -/
theorem test_GET_STATUS_wrap :
    regs .getStatus (at_ 0x74CF { sending .request with txStart := 0xFFFFF000 }) =
      some { sending .request with txStart := 0xFFFFF000 } ∧
    (regs .getStatus (at_ 0x74D0 { sending .request with txStart := 0xFFFFF000 })).map Regs.tRef = some 29904 := by decide

/-- P2: the report is kept. -/
theorem test_GET_LAST_RESPONSE : (outs .getLastResponse (at_ 95001 (delay .master))).map Out.res = some 0x40000001#32 := by
  decide
theorem test_GET_LAST_RESPONSE_STATUS : (outs .getLastResponseStatus (at_ 95002 (delay .master))).map Out.res = some 1#32 := by
  decide

/-- V3.1, P2: accepted in a master's READY, rejected in DELAY. -/
theorem test_SEND_REQUEST_ASYNC :
    outcome (exec (.sendRequestAsync 0x40000001#32) (at_ 1000 { ready .master with rxReg := 5#32, bitIndex := 3#6 })) =
      some (Out.default, { ready .master with status := .requestSending, txFrame := 0x40000001#32, txStart := 1000 }) := by
  decide
theorem test_SEND_REQUEST_ASYNC_rejected :
    outcome (exec (.sendRequestAsync 0#32) (at_ 150000 (delay .master))) = some (Out.rejected, delay .master) := by decide

/-- P5: a slave answers in DELAY; the reception registers stay. V3.1: a master may not. -/
theorem test_SEND_RESPONSE :
    outcome (exec (.sendResponse 0x40000001#32) (at_ 60000 (delay .slave))) =
      some (Out.default, { delay .slave with
        status := .requestSending, txKind := .response, txFrame := 0x40000001#32, txStart := 60000 }) := by decide
theorem test_SEND_RESPONSE_rejected :
    outcome (exec (.sendResponse 0#32) (at_ 1 (ready .master))) = some (Out.rejected, ready .master) := by decide

/-- P3, V3.4: the timeout, at its boundary. -/
theorem test_PROCESS_timeout :
    outcome (exec .process (at_ 1035000 waiting)) = some (Out.default, waiting) ∧
    outcome (exec .process (at_ 1035001 waiting)) = some (Out.report 0#32 .timeout,
      { waiting with status := .delay, lastStatus := .timeout, tRef := 1035001 }) := by decide

/-- P2: the success report; V3.3: a missing stop bit. -/
theorem test_PROCESS_reports :
    outcome (exec .process (at_ 95000 complete)) = some (Out.report 0x40000001#32 .success, delay .master) ∧
    regs .process (at_ 88650 lastSlot) = some lastSlot ∧
    outcome (exec .process (at_ 88651 lastSlot)) =
      some (Out.default, { lastSlot with status := .responseInvalid }) := by decide

/-- V3.3: the start bit's second edge, at the half window's bounds. -/
theorem test_EDGE_startBit :
    (regs (.edge 1#1) (at_ 55399 startBit)).map Regs.status = some .responseInvalid ∧
    regs (.edge 1#1) (at_ 55400 startBit) = some { receiving with tRef := 55400 } ∧
    regs (.edge 1#1) (at_ 55650 startBit) = some { receiving with tRef := 55650 } ∧
    (regs (.edge 1#1) (at_ 55651 startBit)).map Regs.status = some .responseInvalid ∧
    (regs (.edge 0#1) (at_ 55500 startBit)).map Regs.status = some .responseInvalid := by decide

/-- V3.3: the first data edge, at the windows' bounds. -/
theorem test_EDGE_data :
    (regs (.edge 0#1) (at_ 55899 receiving)).map Regs.status = some .responseInvalid ∧
    regs (.edge 0#1) (at_ 55900 receiving) = some { receiving with boundarySeen := true, lastLevel := .active } ∧
    (regs (.edge 0#1) (at_ 56151 receiving)).map Regs.status = some .responseInvalid ∧
    regs (.edge 0#1) (at_ 56650 receiving) =
      some { receiving with bitIndex := 1#6, tRef := 56650, lastLevel := .active } ∧
    (regs (.edge 0#1) (at_ 56651 receiving)).map Regs.status = some .responseInvalid := by decide

/-- V2.1. -/
theorem test_PARITY :
    (outs (.parity 0x80000000#32) State.reset).map (fun o => (o.res, o.ok)) = some (1#32, true) ∧
    (outs (.parity 0xFFFFFFFF#32) State.reset).map (fun o => (o.res, o.ok)) = some (0#32, false) := by decide

/-- V2.2. -/
theorem test_BUILD_REQUEST :
    (outs (.buildRequest 1#3 0xFF#8 0xFFFF#16) State.reset).map Out.res = some 0x90FFFFFF#32 ∧
    outs (.buildRequest 4#3 0#8 0#16) State.reset = some Out.cmdError := by decide
theorem test_BUILD_RESPONSE :
    (outs (.buildResponse 4#3 0#8 0x0300#16) State.reset).map Out.res = some 0xC0000300#32 ∧
    outs (.buildResponse 0#3 0#8 0#16) State.reset = some Out.cmdError := by decide

/-- V2.3. -/
theorem test_GET_MESSAGE_TYPE : (outs (.getMessageType 0xC0000300#32) State.reset).map Out.res = some 4#32 := by decide
theorem test_GET_DATA_ID : (outs (.getDataId 0x70800000#32) State.reset).map Out.res = some 0x80#32 := by decide
theorem test_GET_UINT : (outs (.getUint 0x7FFFFFFF#32) State.reset).map Out.res = some 0xFFFF#32 := by decide
theorem test_IS_VALID_REQUEST :
    (outs (.isValidRequest 0x10011580#32) State.reset).map Out.ok = some true ∧
    (outs (.isValidRequest 0x90011580#32) State.reset).map Out.ok = some false ∧
    (outs (.isValidRequest 0x30000000#32) State.reset).map Out.ok = some false := by decide
theorem test_IS_VALID_RESPONSE :
    (outs (.isValidResponse 0xC1000001#32) State.reset).map Out.ok = some true ∧
    (outs (.isValidResponse 0x40000000#32) State.reset).map Out.ok = some false ∧
    (outs (.isValidResponse 0x10011580#32) State.reset).map Out.ok = some false := by decide

/-- V2.4. -/
theorem test_GET_FLOAT :
    (outs (.getFloat 0x10018000#32) State.reset).map Out.res = some 0xFF800000#32 ∧
    (outs (.getFloat 0x0000FFFF#32) State.reset).map Out.res = some 0xFFFFFF00#32 := by decide

/-- V2.5, column AW. -/
theorem test_TEMPERATURE_TO_DATA :
    (outs (.temperatureToData 0xFFFFFE80#32) State.reset).map Out.res = some 0xFFFE#32 ∧
    (outs (.temperatureToData 0x03E80000#32) State.reset).map Out.res = some 0xE800#32 := by decide

/-- V2.5, columns ES and TS. -/
theorem test_TEMPERATURE_TO_DATA_modes :
    q16ToF88 { Params.standard with f88Round := .nearestEven, f88Ovf := .saturate } 0xFFFFFF80#32 = 0#16 ∧
    q16ToF88 { Params.standard with f88Round := .nearestEven } 0xFF7FFF80#32 = 0x8000#16 ∧
    q16ToF88 { Params.standard with f88Round := .truncate, f88Ovf := .saturate } 0xFFFFFE80#32 = 0xFFFF#16 ∧
    q16ToF88 { Params.standard with f88Round := .truncate, f88Ovf := .saturate } 0x80000000#32 = 0x8000#16 := by decide

/-- V3.2: the output level during a transmission that started at 1000. -/
theorem test_txLevel :
    [999, 1000, 1499, 1500, 2000, 2500, 3000, 34499, 34500, 34999, 35000].map
      (at_ 1000 { sending .request with txFrame := 0x40000001#32 }).outputPin =
    [1#1, 0#1, 0#1, 1#1, 1#1, 0#1, 0#1, 0#1, 1#1, 1#1, 1#1] := by decide

/-- V3.2: the edge counts of 0x55555555 and 0x40000001. -/
theorem test_frameEdges :
    (frameEdges Params.standard 0x55555555#32 0).length = 36 ∧
    (frameEdges Params.standard 0x40000001#32 55000).length = 64 := by decide

/-! ## Steps -/

/-- V3.2: a word with a reserved bit discards the pre-step. -/
theorem test_step_cmdError :
    outcome (step { at_ 1000 (sending .request) with arrivals := [.command 40000 0x0600000000000001#64] }) =
      some (Out.cmdError, sending .request) := by decide

/-- 20_memory.md R68: the edge is stepped before the command of the same instant. -/
theorem test_step_both :
    outcome (step { at_ 50000 waiting with arrivals := [.both 55000 0#1 0x0200000000000000#64] }) =
      some (Out.default, startBit) := by decide

/-- 70_reset_and_hazards.md R270. -/
theorem test_step_reset :
    outcome (step { at_ 50000 waiting with arrivals := [.reset] }) = some (Out.default, Regs.reset) := by decide

/-- 70_reset_and_hazards.md R276, R281: while an exchange is open a gap of `2^31` breaks the discipline and one
microsecond less does not; in DELAY it breaks nothing that is read. -/
theorem test_discipline :
    ((at_ 35000 waiting).accept 2147518648 []).undisciplined = true ∧
    ((at_ 35000 waiting).accept 2147518647 []).undisciplined = false ∧
    ((at_ 35000 waiting).accept 34999 []).undisciplined = true ∧
    ((at_ 95000 (delay .master)).accept 2147578648 []).undisciplined = false := by decide

/-- 41_transceiver_ops.md R169: a host that leaves DELAY alone for `2^31` microseconds still finds the gap over. -/
theorem test_PROCESS_delay_after_long_gap :
    outcome (step { at_ 95000 (delay .master) with arrivals := [.command 2147578648 0x0600000000000000#64] }) =
      some (Out.default, { delay .master with status := .ready, tRef := 2147578648 }) := by decide

/-- P3 as the host's loop: no answer at the deadline, 0 past it. -/
theorem test_sendRequestSync :
    sendRequestSync 0#32 1000 [.poll 1035000] (at_ 10 (ready .master)) = none ∧
    sendRequestSync 0#32 1000 [.poll 1035000, .poll 1035001] (at_ 10 (ready .master)) = some 0#32 := by decide

/-- A table word presented right after reset is decoded and run. -/
theorem test_withFetchWord :
    decodeTableWord 64 0x0100000000000000 = some (.beginSession 0#1) ∧
    outcome (step (State.reset.withFetchWord 64 0x0100000000000000)) =
      some (Out.default, { ready .master with tRef := 0 }) := by decide

/-- 30_encoding.md R94, R95: P1's lines. -/
theorem test_assemble :
    assemble "@1 BUILD_REQUEST 1,1,0x1580".toList = some (1, 0x1000000010011580#64) ∧
    assemble "@0 TEMPERATURE_TO_DATA 21.5 ; a comment".toList = some (0, 0x1900000000158000#64) ∧
    assemble "@8 BUILD_REQUEST READ_ACK, 0, 1".toList = some (8, 0x1000000040000001#64) ∧
    assemble "@10 BEGIN SLAVE".toList = some (10, 0x0100000000000001#64) ∧
    assemble "@10 BEGIN 2".toList = none := by decide

/-! ## The hypotheses of the statements can be met -/

theorem legal_standard : Params.standard.Legal := (legal_iff _).1 (by decide)

/-- The invariant of a concrete register set. -/
theorem inv_waiting : (at_ 55000 waiting).Inv := by
  constructor
  · constructor <;> simp [at_, waiting, State.reset, State.resetWith, Regs.reset, Params.standard, Regs.Clean]
  · decide

theorem test_meets_EncodeOfDecode : decode 0x0700000000000001#64 = .ok (.edge 1#1) := by decide

/-- One reserved opcode of each range, with the state's hypotheses. -/
theorem test_meets_ReservedOpcodeIsCommandError :
    (decode 0x0000000000000000#64 = .error .reservedOpcode ∧ decode 0x0B00000000000000#64 = .error .reservedOpcode ∧
      decode 0x0F00000000000000#64 = .error .reservedOpcode ∧ decode 0x1A00000000000000#64 = .error .reservedOpcode ∧
      decode 0xFF00000000000000#64 = .error .reservedOpcode) ∧
    State.reset.cfg.Legal ∧
    ({ State.reset with arrivals := [.command 0 0x1A00000000000000#64] } : State).arrivals =
      .command 0 0x1A00000000000000#64 :: [] := ⟨by decide, legal_standard, rfl⟩

/-- The lowest and the highest reserved bit of each format, and the reserved bits every format has. -/
theorem test_meets_ReservedBitIsCommandError :
    [0x0600000000000001#64, 0x0600000080000000#64, 0x1000000001000000#64, 0x1000000008000000#64,
      0x1000000080000000#64, 0x0700000000000002#64, 0x0700000080000000#64, 0x1200000100000000#64,
      0x1280000000000000#64, 0x1980000000000000#64].map
        (fun w => (decode w).toOption) = List.replicate 10 none ∧
    (opcodeByte 0x0600000000000001#64 = Opcode.PROCESS.code ∧ opcodeByte 0x1000000001000000#64 = Opcode.BUILD_REQUEST.code ∧
      opcodeByte 0x0700000000000002#64 = Opcode.EDGE.code ∧ opcodeByte 0x1200000100000000#64 = Opcode.PARITY.code ∧
      opcodeByte 0x1900000100000000#64 = Opcode.TEMPERATURE_TO_DATA.code ∧
      decode 0x1900000100000000#64 = .error .reservedBits) ∧
    State.reset.cfg.Legal := ⟨by decide, by decide, legal_standard⟩

/-- The arrivals of each clause. -/
theorem test_meets_StepRunsArrival :
    State.reset.cfg.Legal ∧ State.reset.arrivals = [] ∧
    ({ State.reset with arrivals := [.command 5 (encode .isReady)] } : State).arrivals = .command 5 (encode .isReady) :: [] ∧
    decode (encode .isReady) = .ok .isReady ∧
    ({ State.reset with arrivals := [.edge 5 0#1] } : State).arrivals = .edge 5 0#1 :: [] ∧
    ({ State.reset with arrivals := [.both 5 0#1 (encode .isReady)] } : State).arrivals =
      .both 5 0#1 (encode .isReady) :: [] := ⟨legal_standard, rfl, rfl, by decide, rfl, rfl⟩

/-- Both gaps at their bound, with and without an open exchange; each event that clears the flag, and one that does
not; and a reset. -/
theorem test_meets_TimestampDiscipline :
    (2147483648 = elapsed 32 2147518648 waiting.tRef ∧ 2147483647 = elapsed 32 2147518647 waiting.tRef ∧
      2147483648 = elapsed 32 2147484648 (sending .request).txStart ∧ (delay .master).status = .delay) ∧
    (let cleared (i : Instr) (r : Regs) : Bool :=
        match exec i { at_ 95000 r with undisciplined := true } with
        | .next t => !t.undisciplined
        | .fault _ => false
        | .refused _ => false
      [cleared (.beginSession 0#1) Regs.reset, cleared (.sendRequestAsync 0#32) (ready .master),
        cleared (.sendResponse 0#32) (delay .slave), cleared (.edge 0#1) (ready .slave), cleared .process complete] =
          [true, true, true, true, true] ∧
      cleared (.beginSession 0#1) (ready .master) = false ∧ cleared .endSession (ready .master) = false) ∧
    Params.standard.Legal ∧
    ({ at_ 50000 waiting with arrivals := [.reset], undisciplined := true } : State).arrivals = .reset :: [] :=
  ⟨by decide, by decide, legal_standard, rfl⟩

theorem test_meets_LegalStepAlwaysNext : State.reset.cfg.Legal := legal_standard

/-- Both sides of the equivalence occur. -/
theorem test_meets_IllegalParametersRefused :
    (∃ c : Params, step (State.resetWith c) = .refused .illegalParameters) ∧ ∃ t, step State.reset = .next t :=
  ⟨⟨{ Params.standard with tBit := 1001 }, rfl⟩, ⟨State.reset, rfl⟩⟩

theorem test_meets_ResetRegisters :
    Params.standard.Legal ∧
    ({ at_ 50000 waiting with arrivals := [.reset] } : State).arrivals = .reset :: [] := ⟨legal_standard, rfl⟩

/-- A step of a state that meets the invariant and the clock of the exchange, into reception. -/
theorem test_meets_StepKeepsInvariant : ∃ s t : State, s.Inv ∧ step s = .next t ∧ t.regs = startBit :=
  ⟨{ at_ 55000 waiting with arrivals := [.edge 55000 0#1] }, _,
    ⟨inv_waiting.regs, inv_waiting.now_lt⟩, rfl, by decide⟩

theorem test_meets_StepKeepsExchangeClock :
    ∃ s t : State, s.ExchangeClock ∧ s.regs.AwaitsReply ∧ s.undisciplined = false ∧ step s = .next t ∧
      t.undisciplined = false ∧ t.regs.AwaitsReply :=
  ⟨{ at_ 55000 waiting with arrivals := [.edge 55000 0#1] }, _, ⟨fun _ => by decide, fun _ _ => by decide⟩,
    ⟨rfl, .inl rfl⟩, rfl, rfl, by decide, ⟨by decide, .inr (.inl (by decide))⟩⟩

theorem test_meets_ParityGenerator : (0x7FFFFFFF#32).getLsbD 31 = false ∧ oddParity 0x7FFFFFFF#32 = true := by decide

/-- The smallest and the largest type of each direction. -/
theorem test_meets_BuildCommands :
    (outs (.buildRequest 0#3 0#8 0#16) State.reset).map Out.cmdErr = some false ∧
    (outs (.buildRequest 2#3 0#8 0#16) State.reset).map Out.cmdErr = some false ∧
    (outs (.buildResponse 4#3 0#8 0#16) State.reset).map Out.cmdErr = some false ∧
    (outs (.buildResponse 7#3 0#8 0#16) State.reset).map Out.cmdErr = some false := by decide

/-- The types next to each direction's set. -/
theorem test_meets_BuildRefusesWrongType :
    (outs (.buildRequest 3#3 0#8 0#16) State.reset).map Out.cmdErr = some true ∧
    (outs (.buildRequest 7#3 0#8 0#16) State.reset).map Out.cmdErr = some true ∧
    (outs (.buildResponse 0#3 0#8 0#16) State.reset).map Out.cmdErr = some true ∧
    (outs (.buildResponse 3#3 0#8 0#16) State.reset).map Out.cmdErr = some true := by decide

theorem test_meets_BuiltFramesDecode : isMasterType 2#3 = true ∧ isSlaveType 4#3 = true := by decide

theorem test_meets_ParityDetectsOddErrors : oddParity 0x40000001#32 = false := by decide

/-- A run of each clause, the second at both ends of its range. -/
theorem test_meets_FixedPointRoundTrip :
    (∃ t u, exec (.getFloat 0x8000#32) State.reset = .next t ∧
      exec (.temperatureToData t.out.res) State.reset = .next u) ∧
    (-128 * 65536 ≤ (0xFF800000#32).toInt ∧ (0xFF800000#32).toInt ≤ 128 * 65536 - 256) ∧
    (-128 * 65536 ≤ (0x007FFF00#32).toInt ∧ (0x007FFF00#32).toInt ≤ 128 * 65536 - 256) ∧
    ∃ t u, exec (.temperatureToData 0x007FFF00#32) State.reset = .next t ∧
      exec (.getFloat t.out.res) State.reset = .next u :=
  ⟨⟨_, _, rfl, rfl⟩, by decide, by decide, ⟨_, _, rfl, rfl⟩⟩

theorem test_meets_CodecIsPure :
    ∃ t t', Codec (.parity 1#32) ∧ (at_ 55000 waiting).cfg = State.reset.cfg ∧
      exec (.parity 1#32) State.reset = .next t ∧ exec (.parity 1#32) (at_ 55000 waiting) = .next t' :=
  ⟨_, _, trivial, rfl, rfl, rfl⟩

/-- A finished transmission of each kind, at the first time it is finished, and one that is not. -/
theorem test_meets_PreStepEffect :
    (at_ 35000 (sending .request)).undisciplined = false ∧
    34 * Params.standard.tBit ≤ (at_ 35000 (sending .request)).sinceStart ∧
    34 * Params.standard.tBit ≤ (at_ 35000 (sending .response)).sinceStart ∧
    (sending .request).status = .requestSending ∧ (sending .response).status = .requestSending ∧
    ¬ 34 * Params.standard.tBit ≤ (at_ 34999 (sending .request)).sinceStart := by decide

theorem test_meets_EveryCommandRunsPreStep :
    (∃ t, exec .getStatus (at_ 35000 (sending .request)) = .next t ∧ t.out.cmdErr = false) ∧
    34 * Params.standard.tBit ≤ elapsed 32 35000 (sending .request).txStart ∧
    34 * Params.standard.tBit ≤ elapsed 32 90000 (sending .request).txStart := ⟨⟨_, rfl, by decide⟩, by decide, by decide⟩

theorem test_meets_BeginCommand :
    State.reset.preStep.regs.status = .notInitialized ∧ (at_ 12 (ready .slave)).preStep.regs.status ≠ .notInitialized := by
  decide

theorem test_meets_QueryCommands :
    (at_ 12 (ready .slave)).preStep.regs.status = .ready ∧ State.reset.preStep.regs.status ≠ .ready := by decide

theorem test_meets_QueriesAreIdempotent :
    ∃ t, Query .getStatus ∧ exec .getStatus (at_ 35000 (sending .request)) = .next t := ⟨_, trivial, rfl⟩

theorem test_meets_SendRequestAsyncCommand :
    ((at_ 12 (ready .master)).preStep.regs.status = .ready ∧ (ready .master).role = .master) ∧
    ¬ ((at_ 12 (ready .slave)).preStep.regs.status = .ready ∧ (ready .slave).role = .master) := by decide

/-- Both states it is accepted in, READY also right after its own answer's end. -/
theorem test_meets_SendResponseCommand :
    (at_ 12 (ready .slave)).preStep.regs.status = .ready ∧ (at_ 96000 (delay .slave)).preStep.regs.status = .delay ∧
    (at_ 35000 { sending .response with role := .slave }).preStep.regs.status = .ready ∧
    (at_ 12 (ready .master)).preStep.regs.role ≠ .slave := by decide

/-- The first, the last-but-one and the last slot. -/
theorem test_meets_ManchesterTransitions : 0 < 33 ∧ 32 < 33 ∧ 33 < 34 := by decide

/-- The last half-bit's last microsecond, and the first and the last time of the idle line. -/
theorem test_meets_OutputLine :
    Params.standard.Legal ∧ (at_ 1000 (sending .request)).undisciplined = false ∧
    (sending .request).status = .requestSending ∧ (67 < 68 ∧ 499 < Params.standard.tBit / 2) ∧
    (34 * Params.standard.tBit ≤ 34000 ∧ 2 ^ 32 - 1 < 2 ^ Params.standard.tsW) ∧ waiting.status ≠ .requestSending :=
  ⟨legal_standard, rfl, rfl, by decide, by decide, by decide⟩

theorem test_meets_WaveformEdges : Params.standard.Legal := legal_standard

/-- Each clause on both sides of its bound (V3.3, V3.4). -/
theorem test_meets_ProcessMissingEdge :
    (at_ 55651 startBit).preStep.regs.status = .responseStartBit ∧
    ((at_ 55651 startBit).sinceRef = 651 ∧ (at_ 55650 startBit).sinceRef = 650) ∧
    (at_ 56651 receiving).preStep.regs.status = .responseReceiving ∧
    ((at_ 56651 receiving).sinceRef = 1151 ∧ (at_ 56650 receiving).sinceRef = 1150) := by decide

theorem test_meets_ProcessTimeout :
    (at_ 35000 (sending .request)).preStep.regs.status = .responseWaiting ∧
    (at_ 1035001 waiting).preStep.regs.status = .responseWaiting ∧
    Params.standard.respTimeout < (at_ 1035001 waiting).sinceRef ∧
    (at_ 1035000 waiting).sinceRef ≤ Params.standard.respTimeout := by decide

theorem test_meets_ProcessReports :
    ({ waiting with status := .responseInvalid } : Regs).status = .responseInvalid ∧
    complete.status = .responseReady := by decide

/-- On both sides of the bound (P2). -/
theorem test_meets_ProcessDelay :
    (delay .master).status = .delay ∧ elapsed 32 195000 (delay .master).tRef = 100000 ∧
    elapsed 32 195001 (delay .master).tRef = 100001 := by decide

theorem test_meets_ProcessIdle :
    State.reset.preStep.regs.status = .notInitialized ∧ (at_ 5 (ready .slave)).preStep.regs.status = .ready ∧
    (at_ 34999 (sending .request)).preStep.regs.status = .requestSending := by decide

theorem test_meets_OnlyProcessReports :
    ∃ t, exec .process (at_ 95000 complete) = .next t ∧ t.out.done = true ∧ t.regs.status = .delay ∧
      complete.status ≠ .delay := ⟨_, rfl, by decide, by decide, by decide⟩

theorem test_meets_EdgeIgnored :
    State.reset.preStep.regs.status = .notInitialized ∧ (at_ 96000 (delay .slave)).preStep.regs.status = .delay ∧
    (at_ 34999 (sending .request)).preStep.regs.status = .requestSending ∧
    (at_ 95000 complete).preStep.regs.status = .responseReady ∧
    (at_ 5 { waiting with status := .responseInvalid }).preStep.regs.status = .responseInvalid ∧
    ((at_ 12 (ready .master)).preStep.regs.status = .ready ∧ (ready .master).role = .master) := by decide

theorem test_meets_EdgeStartsSlaveReception :
    (at_ 12 (ready .slave)).preStep.regs.status = .ready ∧ (ready .slave).role = .slave ∧
    0#1 ≠ Params.standard.rxIdlePin ∧ 1#1 = Params.standard.rxIdlePin := by decide

/-- On both sides of the bound, at the end of a transmission and later. -/
theorem test_meets_EdgeWhileWaiting :
    (at_ 35000 (sending .request)).preStep.regs.status = .responseWaiting ∧
    (at_ 1035001 waiting).preStep.regs.status = .responseWaiting ∧
    Params.standard.respTimeout < (at_ 1035001 waiting).sinceRef ∧
    (at_ 1035000 waiting).sinceRef ≤ Params.standard.respTimeout ∧
    0#1 ≠ Params.standard.rxIdlePin ∧ 1#1 = Params.standard.rxIdlePin := by decide

/-- Each bound of the window, one microsecond outside it, and the wrong level. -/
theorem test_meets_EdgeInStartBit :
    startBit.status = .responseStartBit ∧
    [55399, 55400, 55650, 55651].map (fun t => (at_ t startBit).sinceRef) = [399, 400, 650, 651] ∧
    1#1 = Params.standard.rxIdlePin ∧ 0#1 ≠ Params.standard.rxIdlePin := by decide

/-- Each clause at its bounds: a repeated level; the half window; the bit window with bits missing, with the last bit,
and with the stop bit to come at either level; and between and beyond the windows. -/
theorem test_meets_EdgeWhileReceiving :
    Params.standard.Legal ∧ receiving.status = .responseReceiving ∧ lastSlot.status = .responseReceiving ∧
    receiving.lastLevel = .idle ∧ receiving.boundarySeen = false ∧
    [55899, 55900, 56150, 56151, 56399, 56400, 56650, 56651].map (fun t => (at_ t receiving).sinceRef) =
      [399, 400, 650, 651, 899, 900, 1150, 1151] ∧
    receiving.bitIndex.toNat < 32 ∧ ({ receiving with bitIndex := 31#6 } : Regs).bitIndex.toNat < 32 ∧
    lastSlot.bitIndex.toNat = 32 ∧ lastSlot.lastLevel = .active ∧
    ({ lastSlot with boundarySeen := false, lastLevel := .idle } : Regs).bitIndex.toNat = 32 :=
  ⟨legal_standard, by decide⟩

theorem test_meets_WritersOfRegisters :
    (∃ t, exec (.buildRequest 3#3 0#8 0#16) State.reset = .next t ∧ t.out.cmdErr = true) ∧
    (∃ t, exec .process (at_ 95000 complete) = .next t) ∧ (∃ t, exec (.edge 0#1) (at_ 55000 waiting) = .next t) ∧
    (∃ t, exec (.sendResponse 0#32) (at_ 96000 (delay .slave)) = .next t) ∧
    ∃ t, (Codec (.parity 0#32) ∨ Query (.parity 0#32)) ∧ exec (.parity 0#32) State.reset = .next t ∧
      t.out.cmdErr = false :=
  ⟨⟨_, rfl, by decide⟩, ⟨_, rfl⟩, ⟨_, rfl⟩, ⟨_, rfl⟩, ⟨_, .inl trivial, rfl, by decide⟩⟩

theorem test_meets_OnlyBeginOpensSession :
    State.reset.regs.status = .notInitialized ∧ (∃ t, exec (.sendRequestAsync 0#32) State.reset = .next t) ∧
    ∃ t, exec (.sendResponse 0#32) State.reset = .next t := ⟨rfl, ⟨_, rfl⟩, ⟨_, rfl⟩⟩

theorem test_meets_ForegroundKeepsExchange :
    ∃ t, exec .process (at_ 55651 startBit) = .next t ∧ t.out.cmdErr = false ∧
      (at_ 55651 startBit).preStep.regs.status = .responseStartBit ∧
      (at_ 34999 (sending .request)).preStep.regs.status = .requestSending ∧
      (at_ 35000 (sending .request)).preStep.regs.status = .responseWaiting ∧
      (at_ 56000 receiving).preStep.regs.status = .responseReceiving ∧
      (Params.standard.halfMax < (at_ 55651 startBit).sinceRef ∧ Params.standard.bitMax < (at_ 56651 receiving).sinceRef ∧
        Params.standard.respTimeout < (at_ 1035001 waiting).sinceRef) ∧
      ∃ v, exec .endSession (at_ 56000 receiving) = .next v ∧ v.out.cmdErr = false :=
  ⟨_, rfl, by decide, by decide, by decide, by decide, by decide, by decide, _, rfl, by decide⟩

/-- A poll that changes nothing, one that finds the exchange invalid, and one that reports the timeout. -/
theorem test_meets_PollIndependence :
    (at_ 0 waiting).undisciplined = false ∧ waiting.role = .master ∧ waiting.status = .responseWaiting ∧
    startBit.status = .responseStartBit ∧ receiving.status = .responseReceiving ∧
    elapsed 32 1035000 waiting.tRef ≤ elapsed 32 1035000 waiting.tRef ∧
    elapsed 32 1035001 waiting.tRef ≤ elapsed 32 1035002 waiting.tRef ∧
    elapsed 32 56651 receiving.tRef ≤ elapsed 32 56700 receiving.tRef ∧
    regs .process (at_ 1035000 waiting) = some waiting ∧
    (regs .process (at_ 1035001 waiting)).map Regs.status = some .delay ∧
    (regs .process (at_ 56651 receiving)).map Regs.status = some .responseInvalid := by decide

/-- One microsecond past the bound, in a state whose clock is at its latest. -/
theorem test_meets_BoundedCompletion :
    let s := at_ (1000 + Params.standard.bound + 1) waiting
    s.cfg.Legal ∧ s.Inv ∧ s.ExchangeClock ∧ s.undisciplined = false ∧ s.regs.role = .master ∧
      s.cfg.bound < elapsed s.cfg.tsW s.now s.regs.txStart ∧ s.regs.status = .responseWaiting ∧
      ∃ t, exec .process s = .next t :=
  ⟨legal_standard, ⟨inv_waiting.regs, by decide⟩, ⟨fun _ => by decide, fun _ _ => by decide⟩, rfl, rfl, by decide, rfl, ⟨_, rfl⟩⟩

/-- V3.3's jitter: the edges of 0x10011580 moved by 50 to and fro. -/
theorem test_meets_ReceiverReadsEveryFrame :
    let δ : Nat → Int := fun k => if k % 2 = 0 then -50 else 50
    let s : State :=
      { at_ 35000 waiting with
        arrivals := edgeArrivals Params.standard (displace δ (frameEdges Params.standard 0x10011580#32 55000)) ++ [] }
    s.cfg.Legal ∧ s.regs.status = .responseWaiting ∧ s.undisciplined = false ∧
      (s.cfg.halfMin + 2 * 50 ≤ s.cfg.half ∧ s.cfg.half + 2 * 50 ≤ s.cfg.halfMax ∧
        s.cfg.bitMin + 2 * 50 ≤ s.cfg.tBit ∧ s.cfg.tBit + 2 * 50 ≤ s.cfg.bitMax) ∧
      (∀ k, |δ k| ≤ (50 : Nat)) ∧ 50 ≤ 55000 ∧
      elapsed s.cfg.tsW ((55000 : Int) + δ 0).toNat s.regs.tRef ≤ s.cfg.respTimeout ∧
      elapsed s.cfg.tsW ((55000 : Int) + δ 0).toNat s.now < 2 ^ (s.cfg.tsW - 1) ∧
      s.arrivals = edgeArrivals s.cfg (displace δ (frameEdges s.cfg 0x10011580#32 55000)) ++ [] := by
  refine ⟨legal_standard, rfl, rfl, by decide, fun k => ?_, by decide, by decide, by decide, rfl⟩
  dsimp only
  split <;> decide

/-- A request accepted at 1000 whose reply comes at the last moment, with a poll before it, one between its edges and
one after the frame. -/
theorem test_meets_SendRequestReturnsReply :
    let edges := lineTicks Params.standard (frameEdges Params.standard 0x55555555#32 (1000 + 34 * 1000 + 1000000))
    let ticks := [.poll 35000] ++ edges.take 4 ++ [.poll 1037500] ++ edges.drop 4
    Params.standard.Legal ∧
    (((at_ 10 (ready .master)).accept 1000 []).preStep.regs.status = .ready ∧
      ((at_ 10 (ready .master)).accept 1000 []).preStep.regs.role = .master) ∧
    (1000000 ≤ Params.standard.respTimeout ∧ 34 * Params.standard.tBit + 1000000 < 2 ^ (Params.standard.tsW - 1)) ∧
    ticks.filter Tick.isEdge = edges ∧ (1000 :: ticks.map Tick.time).Pairwise (· ≤ ·) :=
  ⟨legal_standard, by decide, by decide, by decide, by decide⟩

/-- A rejected request; an accepted one with a quiet run into RESPONSE_INVALID; and a report of the timeout. -/
theorem test_meets_FirstReportDecides :
    (∃ v, step ((at_ 10 (ready .slave)).present (.command 1000 (encode (.sendRequestAsync 0#32)))) = .next v ∧
      v.out.ok = false) ∧
    (∃ v, step ((at_ 10 (ready .master)).present (.command 1000 (encode (.sendRequestAsync 0#32)))) = .next v ∧
      v.out.ok = true ∧ ∃ u, quietRun [.poll 34999, .edge 36000 1#1] v = some u ∧ u.regs.status = .responseInvalid) ∧
    ∃ v u t, step ((at_ 10 (ready .master)).present (.command 1000 (encode (.sendRequestAsync 0#32)))) = .next v ∧
      quietRun [.poll 35000] v = some u ∧ step (u.present (.command 1035001 (encode .process))) = .next t ∧
      t.out.done = true ∧ t.out.rstat = .timeout :=
  ⟨⟨_, rfl, by decide⟩, ⟨_, rfl, by decide, _, rfl, by decide⟩, ⟨_, _, _, rfl, rfl, rfl, by decide, by decide⟩⟩

/-- The first poll past the deadline, after one at it. -/
theorem test_meets_SendRequestTimesOut :
    Params.standard.Legal ∧ ((at_ 10 (ready .master)).accept 1000 []).preStep.regs.status = .ready ∧
    ((at_ 10 (ready .master)).accept 1000 []).preStep.regs.role = .master ∧
    (1000 :: ([1035000] ++ [1035001])).Pairwise (· ≤ ·) ∧
    1000 + 34 * Params.standard.tBit + Params.standard.respTimeout < 1035001 ∧
    1035001 < 1000 + 2 ^ (Params.standard.tsW - 1) :=
  ⟨legal_standard, by decide, by decide, by decide, by decide, by decide⟩

end Sys2Proof.Machine.Tests
end

/-! PROOFS. What a step does with its arrival, and when it is refused (00_scope.md R9, R12). -/

namespace Sys2Proof.Machine

/-! ## Steps and arrivals -/

/-- Settles O7: one law of the step per kind of arrival, and the fields `accept` sets. -/
theorem stepRunsArrival : Obligations.StepRunsArrival := by
  intro s hlegal
  have hc : s.cfg.legal = true := (legal_iff s.cfg).2 hlegal
  exact ⟨fun hnone => step_nothing hc hnone, fun now w rest i harr hw => step_command hc harr hw,
    fun now pin rest harr => step_edge hc harr, fun now pin w rest harr => step_both hc harr,
    fun now rest => ⟨s.accept_regs now rest, s.accept_cfg now rest, s.accept_arrivals now rest, s.accept_now now rest⟩⟩

/-! ## Refusals -/

/-- Under legal parameters every arrival, a command error's word included, is answered by a next state. -/
theorem step_next_of_legal {s : State} (hc : s.cfg.legal = true) : ∃ t, step s = .next t := by
  rcases harr : s.arrivals with _ | ⟨a, rest⟩
  · exact ⟨s, step_nothing hc harr⟩
  cases a with
  | reset => exact ⟨_, step_reset hc harr⟩
  | edge now pin => exact step_edge hc harr ▸ exec_total _ _
  | both now pin w => exact step_both hc harr ▸ exec_total _ _
  | command now w =>
    cases hw : decode w with
    | ok i => exact step_command hc harr hw ▸ exec_total _ _
    | error e => exact ⟨_, step_badCommand hc harr hw⟩

/-- A step is refused for its parameters exactly when the Boolean test of R9 fails. -/
theorem step_eq_illegalParameters_iff (s : State) :
    step s = .refused .illegalParameters ↔ s.cfg.legal = false := by
  refine ⟨fun hrefused => ?_, step_illegal⟩
  by_contra hc
  obtain ⟨t, hnext⟩ := step_next_of_legal (s := s) (by simpa using hc)
  rw [hnext] at hrefused
  cases hrefused

/-- `Params.Legal` written out, grouped as R9 lists it. R9's last constraint, on `RX_IDLE_PIN`, is met by every bit. -/
theorem legal_iff_constraints (c : Params) :
    c.Legal ↔
      (c.tBit % 2 = 0 ∧ 0 < c.tBit) ∧
      (0 < c.halfMin ∧ c.halfMin ≤ c.tBit / 2 ∧ c.tBit / 2 ≤ c.halfMax ∧
        c.halfMax < c.bitMin ∧ c.bitMin ≤ c.tBit ∧ c.tBit ≤ c.bitMax) ∧
      (34 * c.tBit < 2 ^ (c.tsW - 1) ∧ c.respTimeout < 2 ^ (c.tsW - 1) ∧ c.delayGap < 2 ^ (c.tsW - 1)) ∧
      (c.rxIdlePin = 0#1 ∨ c.rxIdlePin = 1#1) := by
  constructor
  · rintro ⟨even, pos, halfMin_pos, halfMin_le, half_le, disjoint, bitMin_le, tBit_le, frame, timeout, gap⟩
    exact ⟨⟨even, pos⟩, ⟨halfMin_pos, halfMin_le, half_le, disjoint, bitMin_le, tBit_le⟩, ⟨frame, timeout, gap⟩,
      BitVec.eq_zero_or_eq_one c.rxIdlePin⟩
  · rintro ⟨⟨even, pos⟩, ⟨halfMin_pos, halfMin_le, half_le, disjoint, bitMin_le, tBit_le⟩, ⟨frame, timeout, gap⟩, -⟩
    exact ⟨even, pos, halfMin_pos, halfMin_le, half_le, disjoint, bitMin_le, tBit_le, frame, timeout, gap⟩

/-- Settles O10: `step` runs the Boolean test of R9's list first, and past it answers a next state. -/
theorem illegalParametersRefused : Obligations.IllegalParametersRefused := by
  intro s
  rw [step_eq_illegalParameters_iff, ← legal_iff_constraints, ← legal_iff, Bool.not_eq_true]

end Sys2Proof.Machine

/-! PROOFS. The invariant of the registers: what each register update does to it, then every command and every step
(10_state.md R30 to R42). -/

namespace Sys2Proof.Machine

/-! ## The invariant, status by status -/

/-- The clauses of `Regs.Inv` that hold in every status. -/
structure Regs.Steady (w : Nat) (r : Regs) : Prop where
  tRef_lt : r.tRef < 2 ^ w
  txStart_lt : r.txStart < 2 ^ w
  bitIndex_le : r.bitIndex ≤ 32#6
  no_value : r.lastStatus = .none ∨ r.lastStatus = .timeout → r.lastResponse = 0#32
  timeout_master : r.lastStatus = .timeout → r.role = .master

/-- What `Regs.Inv` says of the current status. -/
def Regs.StatusClause (r : Regs) : Prop :=
  match r.status with
  | .notInitialized | .ready | .responseInvalid => True
  | .delay => r.lastStatus ≠ .none
  | .requestSending => (r.txKind = .request → r.Clean) ∧ (r.txKind = .request ↔ r.role = .master)
  | .responseWaiting => r.Clean ∧ r.role = .master
  | .responseStartBit => r.Clean ∧ r.lastLevel = .active
  | .responseReceiving =>
    r.rxReg.toNat < 2 ^ r.bitIndex.toNat ∧ (r.lastLevel = .idle ↔ r.lastBit = !r.boundarySeen)
  | .responseReady => r.bitIndex = 32#6 ∧ r.boundarySeen = false ∧ r.lastLevel = .idle

theorem Regs.inv_iff {w : Nat} {r : Regs} : r.Inv w ↔ r.Steady w ∧ r.StatusClause := by
  constructor
  · intro h
    refine ⟨⟨h.tRef_lt, h.txStart_lt, h.bitIndex_le, h.no_value, h.timeout_master⟩, ?_⟩
    cases hs : r.status <;> simp only [StatusClause, hs]
    case delay => exact h.delay_reported hs
    case requestSending => exact ⟨h.sending_clean hs, h.sending_role hs⟩
    case responseWaiting => exact ⟨h.waiting_clean hs, h.waiting_master hs⟩
    case responseStartBit => exact h.startBit_clean hs
    case responseReceiving => exact ⟨h.receiving_fits hs, h.receiving_level hs⟩
    case responseReady => exact h.complete hs
  · rintro ⟨⟨htRef, htxStart, hindex, hvalue, htimeout⟩, hclause⟩
    cases hs : r.status <;> simp only [StatusClause, hs] at hclause <;> constructor <;> simp_all

section

variable {w t : Nat} {r : Regs}

theorem Regs.Inv.steady (h : r.Inv w) : r.Steady w := (inv_iff.1 h).1

/-- Three statuses have no clause of their own. -/
theorem Regs.Steady.inv_of_resting (h : r.Steady w)
    (hs : r.status = .notInitialized ∨ r.status = .ready ∨ r.status = .responseInvalid) : r.Inv w :=
  inv_iff.2 ⟨h, by rcases hs with hs | hs | hs <;> simp [StatusClause, hs]⟩

/-! ## The register updates -/

/-- END and a fault of the exchange (41_transceiver_ops.md R152; 00_scope.md R16). -/
theorem Regs.Inv.setStatus_resting (h : r.Inv w) {p : Status}
    (hp : p = .notInitialized ∨ p = .ready ∨ p = .responseInvalid) : (r.setStatus p).Inv w :=
  Steady.inv_of_resting { h.steady with } hp

/-- The end of a response or of DELAY (41_transceiver_ops.md R150, R169). -/
theorem Regs.Inv.enter_ready (h : r.Inv w) (ht : t < 2 ^ w) : (r.enter .ready t).Inv w :=
  Steady.inv_of_resting { h.steady with tRef_lt := ht } (by simp)

/-- The end of a request (41_transceiver_ops.md R150). -/
theorem Regs.Inv.enter_responseWaiting (h : r.Inv w) (hs : r.status = .requestSending) (hk : r.txKind = .request)
    (ht : t < 2 ^ w) : (r.enter .responseWaiting t).Inv w :=
  inv_iff.2 ⟨{ h.steady with tRef_lt := ht }, h.sending_clean hs hk, (h.sending_role hs).1 hk⟩

/-- BEGIN (41_transceiver_ops.md R151). -/
theorem Regs.Inv.openSession (h : r.Inv w) (x : Role) (ht : t < 2 ^ w) :
    ((r.openSession x t).clearReception .idle).Inv w :=
  Steady.inv_of_resting
    { tRef_lt := ht, txStart_lt := h.txStart_lt, bitIndex_le := by simp, no_value := by simp, timeout_master := by simp }
    (by simp)

/-- SEND_REQUEST_ASYNC (41_transceiver_ops.md R157). -/
theorem Regs.Inv.startSending_request (h : r.Inv w) (hrole : r.role = .master) (f : Word32) (ht : t < 2 ^ w) :
    ((r.startSending .request f t).clearReception .idle).Inv w :=
  inv_iff.2 ⟨{ h.steady with txStart_lt := ht, bitIndex_le := by simp }, by simp [StatusClause, Clean, hrole]⟩

/-- SEND_RESPONSE (41_transceiver_ops.md R158). -/
theorem Regs.Inv.startSending_response (h : r.Inv w) (hrole : r.role = .slave) (f : Word32) (ht : t < 2 ^ w) :
    (r.startSending .response f t).Inv w :=
  inv_iff.2 ⟨{ h.steady with txStart_lt := ht }, by simp [StatusClause, hrole]⟩

/-- A report; a TIMEOUT has no value and is a master's (41_transceiver_ops.md R166 to R168). -/
theorem Regs.Inv.complete_of_report (h : r.Inv w) {v : Word32} {st : RespStatus} (hst : st ≠ .none)
    (htimeout : st = .timeout → v = 0#32 ∧ r.role = .master) (ht : t < 2 ^ w) : (r.complete v st t).Inv w :=
  inv_iff.2 ⟨{ h.steady with
    tRef_lt := ht
    no_value := fun hnone => hnone.elim (absurd · hst) fun h => (htimeout h).1
    timeout_master := fun h => (htimeout h).2 }, hst⟩

/-- A slave's start edge (42_receiver.md R203). -/
theorem Regs.Inv.startBit_clearReception (h : r.Inv w) (ht : t < 2 ^ w) :
    ((r.startBit t).clearReception .active).Inv w :=
  inv_iff.2 ⟨{ h.steady with tRef_lt := ht, bitIndex_le := by simp }, by simp [StatusClause, Clean]⟩

/-- A master's start edge finds the reception registers cleared (42_receiver.md R205). -/
theorem Regs.Inv.startBit (h : r.Inv w) (hs : r.status = .responseWaiting) (ht : t < 2 ^ w) : (r.startBit t).Inv w :=
  inv_iff.2 ⟨{ h.steady with tRef_lt := ht }, h.waiting_clean hs, rfl⟩

/-- The start bit's mid-bit edge: no data bit is in `rxReg` yet (42_receiver.md R207). -/
theorem Regs.Inv.beginData (h : r.Inv w) (hs : r.status = .responseStartBit) (ht : t < 2 ^ w) :
    (r.beginData t).Inv w := by
  obtain ⟨⟨hempty, -, -⟩, -⟩ := h.startBit_clean hs
  exact inv_iff.2 ⟨{ h.steady with tRef_lt := ht, bitIndex_le := by simp }, by simp [StatusClause, lastBit, hempty]⟩

/-- A boundary edge goes to the opposite of the last bit's level (42_receiver.md R210). -/
theorem Regs.Inv.acceptBoundary (h : r.Inv w) (hs : r.status = .responseReceiving) (hb : r.boundarySeen = false)
    {l : Level} (hl : l ≠ r.lastLevel) : (r.acceptBoundary l).Inv w := by
  have hlevel : l = .idle ↔ r.lastBit = false := by
    have hold := h.receiving_level hs
    rw [hb] at hold
    cases l <;> cases hlevel : r.lastLevel <;> simp_all
  have hlast : (r.acceptBoundary l).lastBit = r.lastBit := rfl
  exact inv_iff.2 ⟨{ h.steady with }, by simpa [StatusClause, hs, hlast] using ⟨h.receiving_fits hs, hlevel⟩⟩

/-- One more bit in `rxReg` needs one more bit of room (42_receiver.md R211). -/
theorem shiftIn_lt {v : Word32} {k : Nat} (b : Bit) (h : v.toNat < 2 ^ k) : (shiftIn v b).toNat < 2 ^ (k + 1) := by
  have hb : b.toNat < 2 := b.isLt
  calc (shiftIn v b).toNat ≤ 2 * v.toNat + b.toNat := shiftIn_toNat v b ▸ Nat.mod_le _ _
    _ < 2 ^ (k + 1) := by rw [pow_succ]; omega

/-- The last bit of `rxReg` is the one shifted in, a 1 exactly when the edge goes to IDLE (42_receiver.md R211, R214). -/
theorem shiftIn_bitOf_lsb (v : Word32) (l : Level) : (shiftIn v (bitOf l)).getLsbD 0 = true ↔ l = .idle := by
  cases l <;> simp [shiftIn, bitOf]

/-- An accepted data bit (42_receiver.md R211). -/
theorem Regs.Inv.acceptBit (h : r.Inv w) (hs : r.status = .responseReceiving) (hi : r.bitIndex < 32#6) (l : Level)
    (ht : t < 2 ^ w) : (r.acceptBit l t).Inv w := by
  have hnext : (r.bitIndex + 1#6).toNat = r.bitIndex.toNat + 1 := by bv_omega
  have hle : r.bitIndex + 1#6 ≤ 32#6 := by bv_omega
  have hne : r.bitIndex + 1#6 ≠ 0#6 := by bv_omega
  have hfits := shiftIn_lt (bitOf l) (h.receiving_fits hs)
  have hlsb := shiftIn_bitOf_lsb r.rxReg l
  rw [← hnext] at hfits
  refine inv_iff.2 ⟨{ h.steady with tRef_lt := ht, bitIndex_le := hle }, ?_⟩
  simpa [StatusClause, hs, lastBit, hne] using ⟨hfits, hlsb.symm⟩

/-- The accepted stop bit (42_receiver.md R212). -/
theorem Regs.Inv.acceptStop (h : r.Inv w) (hi : r.bitIndex = 32#6) (ht : t < 2 ^ w) : (r.acceptStop t).Inv w :=
  inv_iff.2 ⟨{ h.steady with tRef_lt := ht }, hi, rfl, rfl⟩

theorem Regs.inv_reset (w : Nat) : Regs.reset.Inv w :=
  Steady.inv_of_resting
    { tRef_lt := Nat.two_pow_pos w, txStart_lt := Nat.two_pow_pos w, bitIndex_le := by decide, no_value := fun _ => rfl
      timeout_master := nofun }
    (.inl rfl)

end

/-! ## The commands -/

namespace State.Inv

variable {s : State}

/-- Where the setting stays, the invariant is the registers'. -/
theorem of_sameSetting (h : s.Inv) {t : State} (hset : s.SameSetting t) (hregs : t.regs.Inv s.cfg.tsW) : t.Inv :=
  ⟨hset.cfg ▸ hregs, by rw [hset.now, hset.cfg]; exact h.now_lt⟩

/-- The pre-step ends a request in RESPONSE_WAITING and a response in READY (41_transceiver_ops.md R150). -/
theorem preStep (h : s.Inv) : s.preStep.Inv := by
  refine ⟨?_, by simpa using h.now_lt⟩
  rcases s.preStep_cases with ⟨-, hs, -, heq⟩ | ⟨-, heq⟩ <;> rw [heq]
  · have hend : s.txEnd < 2 ^ s.cfg.tsW := addTime_lt _ _ _
    cases hk : s.regs.txKind with
    | request => simpa [afterSending, hk] using h.regs.enter_responseWaiting hs hk hend
    | response => simpa [afterSending, hk] using h.regs.enter_ready hend
  · exact h.regs

theorem poll_regs (h : s.Inv) : s.poll.regs.Inv s.cfg.tsW := by
  rcases s.poll_cases with heq | ⟨-, -, heq⟩ | ⟨-, -, heq⟩ | ⟨hs, -, heq⟩ | ⟨-, heq⟩ | ⟨-, heq⟩ | ⟨-, -, heq⟩ <;>
    rw [heq]
  · exact h.regs
  · exact h.regs.setStatus_resting (.inr (.inr rfl))
  · exact h.regs.setStatus_resting (.inr (.inr rfl))
  · exact h.regs.complete_of_report nofun (fun _ => ⟨rfl, h.regs.waiting_master hs⟩) h.now_lt
  · exact h.regs.complete_of_report nofun nofun h.now_lt
  · exact h.regs.complete_of_report nofun nofun h.now_lt
  · exact h.regs.enter_ready h.now_lt

theorem onEdge_regs (h : s.Inv) (l : Level) : (s.onEdge l).regs.Inv s.cfg.tsW := by
  rcases s.onEdge_cases l with heq | ⟨-, _, heq⟩ | ⟨-, -, -, heq⟩ | ⟨hs, -, -, heq⟩ | ⟨hs, -, -, heq⟩ |
    ⟨hs, hl, ⟨hb, -, heq⟩ | ⟨-, hi, heq⟩ | ⟨-, hi, -, heq⟩⟩ <;> rw [heq]
  · exact h.regs
  · exact h.regs.setStatus_resting (.inr (.inr rfl))
  · exact h.regs.startBit_clearReception h.now_lt
  · exact h.regs.startBit hs h.now_lt
  · exact h.regs.beginData hs h.now_lt
  · exact h.regs.acceptBoundary hs hb hl
  · exact h.regs.acceptBit hs hi l h.now_lt
  · exact h.regs.acceptStop hi h.now_lt

theorem openSession_regs (h : s.Inv) (x : Role) : (s.openSession x).regs.Inv s.cfg.tsW := by
  unfold openSession
  split
  · exact h.regs.openSession x h.now_lt
  · exact h.regs

theorem sendRequest_regs (h : s.Inv) (f : Word32) : (s.sendRequest f).regs.Inv s.cfg.tsW := by
  unfold sendRequest
  split
  case isTrue hready => exact h.regs.startSending_request hready.2 f h.now_lt
  case isFalse => exact h.regs

theorem sendResponse_regs (h : s.Inv) (f : Word32) : (s.sendResponse f).regs.Inv s.cfg.tsW := by
  unfold sendResponse
  split
  case isTrue hslave => exact h.regs.startSending_response hslave.1 f h.now_lt
  case isFalse => exact h.regs

theorem exec_regs (h : s.Inv) {i : Instr} {t : State} (hexec : exec i s = .next t) : t.regs.Inv s.cfg.tsW := by
  have hpre := h.preStep
  rw [← s.preStep_cfg]
  cases i <;> cases hexec
  case beginSession => exact hpre.openSession_regs _
  case endSession => exact hpre.regs.setStatus_resting (.inl rfl)
  case sendRequestAsync => exact hpre.sendRequest_regs _
  case sendResponse => exact hpre.sendResponse_regs _
  case process => exact hpre.poll_regs
  case edge => exact hpre.onEdge_regs _
  case buildRequest | buildResponse =>
    split
    · exact hpre.regs
    · simpa using h.regs
  all_goals exact hpre.regs

theorem exec (h : s.Inv) {i : Instr} {t : State} (hexec : Machine.exec i s = .next t) : t.Inv :=
  h.of_sameSetting (exec_sameSetting hexec) (h.exec_regs hexec)

/-! ## The steps -/

theorem accept (h : s.Inv) (now : Nat) (rest : List Arrival) : (s.accept now rest).Inv :=
  ⟨h.regs, stamp_lt _ _⟩

theorem hardwareReset (h : s.Inv) (rest : List Arrival) : (s.hardwareReset rest).Inv :=
  ⟨Regs.inv_reset _, h.now_lt⟩

end State.Inv

/-- Settles O13: a step stays, resets, or runs a command (or answers a command error) on the accepted event, and each of
these keeps the invariant. -/
theorem stepKeepsInvariant : Obligations.StepKeepsInvariant := by
  intro s t hinv hstep
  obtain ⟨-, rfl | ⟨rest, rfl⟩ | ⟨now, rest, ⟨i, hexec⟩ | rfl⟩⟩ := step_cases hstep
  · exact hinv
  · exact hinv.hardwareReset rest
  · exact (hinv.accept now rest).exec hexec
  · exact ⟨(hinv.accept now rest).regs, (hinv.accept now rest).now_lt⟩

end Sys2Proof.Machine

/-! PROOFS. Which commands write which registers (10_state.md R44): for each operation that writes registers, the ones
it can change. -/

namespace Sys2Proof.Machine

namespace State

variable (s : State)

/-- BEGIN does not write the transmission's registers. -/
theorem openSession_regs (x : Role) : (s.openSession x).regs =
    { (s.openSession x).regs with txFrame := s.regs.txFrame, txStart := s.regs.txStart, txKind := s.regs.txKind } := by
  unfold openSession
  split <;> rfl

/-- SEND_REQUEST_ASYNC does not write `role`, `tRef` nor the last response. -/
theorem sendRequest_regs (f : Word32) : (s.sendRequest f).regs =
    { (s.sendRequest f).regs with
      role := s.regs.role, tRef := s.regs.tRef
      lastResponse := s.regs.lastResponse, lastStatus := s.regs.lastStatus } := by
  unfold sendRequest
  split <;> rfl

/-- SEND_RESPONSE writes `status` and the transmission's registers and nothing else. -/
theorem sendResponse_regs (f : Word32) : (s.sendResponse f).regs =
    { s.regs with
      status := (s.sendResponse f).regs.status
      txFrame := (s.sendResponse f).regs.txFrame
      txStart := (s.sendResponse f).regs.txStart
      txKind := (s.sendResponse f).regs.txKind } := by
  unfold sendResponse
  split <;> rfl

/-- PROCESS writes `status`, `tRef` and the last response and nothing else. -/
theorem poll_regs : s.poll.regs =
    { s.regs with
      status := s.poll.regs.status, tRef := s.poll.regs.tRef
      lastResponse := s.poll.regs.lastResponse, lastStatus := s.poll.regs.lastStatus } := by
  rcases s.poll_cases with h | ⟨-, -, h⟩ | ⟨-, -, h⟩ | ⟨-, -, h⟩ | ⟨-, h⟩ | ⟨-, h⟩ | ⟨-, -, h⟩ <;> rw [h] <;> rfl

/-- EDGE writes `status`, `tRef` and the reception registers and nothing else. -/
theorem onEdge_regs (l : Level) : (s.onEdge l).regs =
    { s.regs with
      status := (s.onEdge l).regs.status, tRef := (s.onEdge l).regs.tRef
      rxReg := (s.onEdge l).regs.rxReg, bitIndex := (s.onEdge l).regs.bitIndex
      boundarySeen := (s.onEdge l).regs.boundarySeen, lastLevel := (s.onEdge l).regs.lastLevel } := by
  rcases s.onEdge_cases l with h | ⟨-, _, h⟩ | ⟨-, -, -, h⟩ | ⟨-, -, -, h⟩ | ⟨-, -, -, h⟩ |
    ⟨-, -, ⟨-, -, h⟩ | ⟨-, -, h⟩ | ⟨-, -, -, h⟩⟩ <;> rw [h] <;> rfl

/-! Of these no outcome is a command error (00_scope.md R16). -/

theorem openSession_cmdErr (x : Role) : (s.openSession x).out.cmdErr = false := by
  unfold openSession
  split <;> rfl

theorem sendRequest_cmdErr (f : Word32) : (s.sendRequest f).out.cmdErr = false := by
  unfold sendRequest
  split <;> rfl

theorem sendResponse_cmdErr (f : Word32) : (s.sendResponse f).out.cmdErr = false := by
  unfold sendResponse
  split <;> rfl

theorem poll_cmdErr : s.poll.out.cmdErr = false := by
  rcases s.poll_cases with h | ⟨-, -, h⟩ | ⟨-, -, h⟩ | ⟨-, -, h⟩ | ⟨-, h⟩ | ⟨-, h⟩ | ⟨-, -, h⟩ <;> rw [h] <;> rfl

theorem onEdge_cmdErr (l : Level) : (s.onEdge l).out.cmdErr = false := by
  rw [onEdge_out]
  rfl

end State

/-- A codec or query command errs and writes nothing, or leaves the registers as the pre-step does. -/
theorem exec_codec_or_query {i : Instr} {s t : State} (hi : Codec i ∨ Query i) (h : exec i s = .next t) :
    (t.out.cmdErr = true ∧ t.regs = s.regs) ∨ (t.out.cmdErr = false ∧ t.regs = s.preStep.regs) := by
  cases i <;> cases h
  case buildRequest | buildResponse =>
    split
    · exact .inr ⟨rfl, rfl⟩
    · exact .inl ⟨rfl, rfl⟩
  case beginSession | endSession | sendRequestAsync | sendResponse | process | edge => exact hi.elim False.elim False.elim
  all_goals exact .inr ⟨rfl, rfl⟩

/-- Settles O50: command by command, from what each can write. -/
theorem writersOfRegisters : Obligations.WritersOfRegisters := by
  intro i s t h
  by_cases hi : Codec i ∨ Query i
  case pos =>
    rcases exec_codec_or_query hi h with ⟨herr, hregs⟩ | ⟨herr, hregs⟩ <;> simp [herr, hregs]
  case neg =>
    cases i <;> cases h
    case beginSession b =>
      rw [s.preStep.openSession_regs]
      simp [Codec, Query, State.openSession_cmdErr]
    case endSession => simp [Codec, Query, State.closeSession, Out.default]
    case sendRequestAsync f =>
      rw [s.preStep.sendRequest_regs]
      simp [Codec, Query, State.sendRequest_cmdErr]
    case sendResponse f =>
      rw [s.preStep.sendResponse_regs]
      simp [Codec, Query, State.sendResponse_cmdErr]
    case process =>
      rw [s.preStep.poll_regs]
      simp [Codec, Query, State.poll_cmdErr]
    case edge pin =>
      rw [s.preStep.onEdge_regs]
      simp [Codec, Query, State.onEdge_cmdErr]
    all_goals exact absurd (by simp [Codec, Query]) hi

end Sys2Proof.Machine

/-! PROOFS. The reset (10_state.md R51; 70_reset_and_hazards.md R270). -/

namespace Sys2Proof.Machine

/-- The output pin is high in every state but REQUEST_SENDING (41_transceiver_ops.md R161). -/
theorem State.outputPin_of_not_sending {s : State} (h : s.regs.status ≠ .requestSending) (x : Nat) :
    s.outputPin x = 1#1 := by
  simp [outputPin, txLevel, h, Level.code]

/-- Settles O11: at power-on and after the reset input the registers are `Regs.reset`, and no frame is sent. -/
theorem resetRegisters : Obligations.ResetRegisters := by
  refine ⟨rfl, State.outputPin_of_not_sending nofun, fun s rest hlegal harr => ?_⟩
  have hstep := step_reset ((legal_iff s.cfg).2 hlegal) harr
  exact ⟨s.hardwareReset rest, hstep, rfl, rfl, rfl, rfl, State.outputPin_of_not_sending nofun⟩

/-- Settles O12. -/
theorem resetMeetsInvariant : Obligations.ResetMeetsInvariant :=
  ⟨⟨Regs.inv_reset _, Nat.two_pow_pos _⟩, (legal_iff _).1 (by decide)⟩

end Sys2Proof.Machine

/-! PROOFS. What the foreground's commands leave (20_memory.md R66, R69): queries repeat, and an exchange in flight is
disturbed by END and by PROCESS's deadlines only. -/

namespace Sys2Proof.Machine

/-! ## Queries -/

/-- The pre-step neither reads nor writes the outputs. -/
@[simp] theorem State.preStep_answer (s : State) (o : Out) : (s.answer o).preStep = s.preStep.answer o := by
  rcases s.preStep_cases with ⟨hsent, -, -, heq⟩ | ⟨hsent, heq⟩ <;> rw [heq]
  · exact (s.answer o).preStep_of_sent hsent
  · exact (s.answer o).preStep_of_not_sent hsent

/-- A query answers a function of the registers after the pre-step, and does nothing else. -/
theorem exec_query {i : Instr} (hi : Query i) :
    ∃ result : Regs → Out, ∀ s, exec i s = .next (s.preStep.answer (result s.preStep.regs)) := by
  cases i
  case isReady => exact ⟨fun r => Out.bool (r.status = .ready), exec_isReady⟩
  case getStatus => exact ⟨fun r => Out.value (r.status.code.zeroExtend 32), exec_getStatus⟩
  case getLastResponse => exact ⟨fun r => Out.value r.lastResponse, exec_getLastResponse⟩
  case getLastResponseStatus =>
    exact ⟨fun r => Out.value (r.lastStatus.code.zeroExtend 32), exec_getLastResponseStatus⟩
  all_goals exact hi.elim

/-- Settles O32: the pre-step runs once, so the repeated query reads the same registers. -/
theorem queriesAreIdempotent : Obligations.QueriesAreIdempotent := by
  intro i s t hi hexec
  obtain ⟨result, hresult⟩ := exec_query hi
  rw [hresult] at hexec
  cases hexec
  rw [hresult, State.preStep_answer, State.preStep_preStep]
  rfl

/-! ## An exchange in flight -/

/-- A frame is being sent, awaited or received (20_memory.md R69). -/
def Regs.InFlight (r : Regs) : Prop :=
  r.status = .requestSending ∨ r.status = .responseWaiting ∨ r.status = .responseStartBit ∨
    r.status = .responseReceiving

theorem Regs.InFlight.status_ne {r : Regs} (h : r.InFlight) :
    r.status ≠ .notInitialized ∧ r.status ≠ .ready ∧ r.status ≠ .delay ∧ r.status ≠ .responseReady ∧
      r.status ≠ .responseInvalid := by
  rcases h with h | h | h | h <;> simp [h]

namespace State

variable {s : State}

theorem openSession_of_inFlight (h : s.regs.InFlight) (x : Role) : s.openSession x = s.reject := by
  obtain ⟨hclosed, -⟩ := h.status_ne
  exact if_neg hclosed

theorem sendRequest_of_inFlight (h : s.regs.InFlight) (f : Word32) : s.sendRequest f = s.reject := by
  obtain ⟨-, hready, -⟩ := h.status_ne
  exact if_neg fun hmaster => hready hmaster.1

theorem sendResponse_of_inFlight (h : s.regs.InFlight) (f : Word32) : s.sendResponse f = s.reject := by
  obtain ⟨-, hready, hdelay, -⟩ := h.status_ne
  exact if_neg fun hslave => hslave.2.elim hready hdelay

/-- PROCESS acts on an exchange in flight past a deadline only (41_transceiver_ops.md R164 to R166). -/
theorem poll_of_inFlight (h : s.regs.InFlight) :
    s.poll.regs = s.regs ∨
    (s.regs.status = .responseStartBit ∧ s.cfg.halfMax < s.sinceRef ∧
      s.poll.regs = s.regs.setStatus .responseInvalid) ∨
    (s.regs.status = .responseReceiving ∧ s.cfg.bitMax < s.sinceRef ∧
      s.poll.regs = s.regs.setStatus .responseInvalid) ∨
    (s.regs.status = .responseWaiting ∧ s.cfg.respTimeout < s.sinceRef ∧ s.poll.out = Out.report 0#32 .timeout) := by
  obtain ⟨-, -, hdelay, hready, hinvalid⟩ := h.status_ne
  rcases s.poll_cases with heq | ⟨hs, hlate, heq⟩ | ⟨hs, hlate, heq⟩ | ⟨hs, hlate, heq⟩ | ⟨hs, -⟩ |
    ⟨hs, -⟩ | ⟨hs, -, -⟩
  · exact .inl (by rw [heq]; rfl)
  · exact .inr (.inl ⟨hs, hlate, by rw [heq]; rfl⟩)
  · exact .inr (.inr (.inl ⟨hs, hlate, by rw [heq]; rfl⟩))
  · exact .inr (.inr (.inr ⟨hs, hlate, by rw [heq]; rfl⟩))
  · exact absurd hs hinvalid
  · exact absurd hs hready
  · exact absurd hs hdelay

end State

/-- While an exchange is in flight the host's commands but END and PROCESS leave the registers as the pre-step does:
BEGIN and the sends are rejected, and codec and query commands write none. -/
theorem exec_regs_of_inFlight {i : Instr} {s t : State} (hflight : s.preStep.regs.InFlight)
    (hedge : ∀ pin, i ≠ .edge pin) (hprocess : i ≠ .process) (hend : i ≠ .endSession)
    (hexec : exec i s = .next t) (herr : t.out.cmdErr = false) : t.regs = s.preStep.regs := by
  by_cases hi : Codec i ∨ Query i
  case pos =>
    rcases exec_codec_or_query hi hexec with ⟨herr', -⟩ | ⟨-, hregs⟩
    · exact nomatch herr.symm.trans herr'
    · exact hregs
  case neg =>
    cases i <;> cases hexec
    case beginSession => rw [State.openSession_of_inFlight hflight]; rfl
    case sendRequestAsync => rw [State.sendRequest_of_inFlight hflight]; rfl
    case sendResponse => rw [State.sendResponse_of_inFlight hflight]; rfl
    case endSession => exact absurd rfl hend
    case process => exact absurd rfl hprocess
    case edge pin => exact absurd rfl (hedge pin)
    all_goals exact absurd (by simp [Codec, Query]) hi

/-- Settles O52: PROCESS and END by what they write, every other command because it writes nothing. -/
theorem foregroundKeepsExchange : Obligations.ForegroundKeepsExchange := by
  intro i s t hedge hexec herr p hflight
  by_cases hprocess : i = .process
  · subst hprocess
    cases hexec
    refine ⟨by rw [State.poll_regs]; simp, fun h => absurd rfl h, nofun, fun _ => ?_⟩
    rw [← s.preStep_cfg]
    exact State.poll_of_inFlight hflight
  by_cases hend : i = .endSession
  · subst hend
    cases hexec
    exact ⟨by simp [State.closeSession], fun _ h => absurd rfl h, fun _ => ⟨rfl, rfl⟩, nofun⟩
  have hregs := exec_regs_of_inFlight hflight hedge hprocess hend hexec herr
  exact ⟨by simp [hregs], fun _ _ => hregs, fun h => absurd h hend, fun h => absurd h hprocess⟩

end Sys2Proof.Machine

/-! PROOFS. The decoder and the encoder of command words (30_encoding.md R84 to R91). -/

namespace Sys2Proof

/-! ## Reserved bits (30_encoding.md R90) -/

/-- Masking gives 0 exactly when every bit of the mask is clear in the word. -/
theorem and_eq_zero_iff (w m : CommandWord) :
    w &&& m = 0#64 ↔ ∀ i < 64, m.getLsbD i = true → w.getLsbD i = false := by
  constructor
  · intro h i _ hm
    have hbit := congrArg (·.getLsbD i) h
    simpa [hm] using hbit
  · intro h
    apply BitVec.eq_of_getLsbD_eq
    intro i hi
    cases hm : m.getLsbD i
    · simp [hm]
    · simp [h i hi hm]

/-- A field is 0 exactly when each of its bits is clear. -/
theorem extractLsb'_eq_zero_iff {v : Nat} (w : BitVec v) (lo n : Nat) :
    w.extractLsb' lo n = 0#n ↔ ∀ i, lo ≤ i → i < lo + n → w.getLsbD i = false := by
  constructor
  · intro h i hlo hi
    have hbit := congrArg (·.getLsbD (i - lo)) h
    simpa [show i - lo < n by omega, show lo + (i - lo) = i by omega] using hbit
  · intro h
    apply BitVec.eq_of_getLsbD_eq
    intro i hi
    simp [hi, h (lo + i) (by omega) (by omega)]

/-- Bit `i` of a command word is reserved by the format (30_encoding.md R90). -/
def Format.reserves (fmt : Format) (i : Nat) : Bool :=
  32 ≤ i && i < 56 ||
    match fmt with
    | .N => i < 32
    | .B => i = 31 || 24 ≤ i && i < 28
    | .L => 1 ≤ i && i < 32
    | .F => false
    | .T => false

theorem Format.reserved_getLsbD (fmt : Format) {i : Nat} (hi : i < 64) :
    fmt.reserved.getLsbD i = fmt.reserves i := by
  have h : ∀ j : Fin 64, fmt.reserved.getLsbD j = fmt.reserves j := by cases fmt <;> decide
  exact h ⟨i, hi⟩

/-- The format's own reserved fields are 0, in the operand field (30_encoding.md R90). -/
def Format.OperandClear (fmt : Format) (w : CommandWord) : Prop :=
  match fmt with
  | .N => w.extractLsb' 0 32 = 0#32
  | .B => w.extractLsb' 31 1 = 0#1 ∧ w.extractLsb' 24 4 = 0#4
  | .L => w.extractLsb' 1 31 = 0#31
  | .F => True
  | .T => True

/-- The reserved mask, field by field. -/
theorem Format.and_reserved_eq_zero_iff (fmt : Format) (w : CommandWord) :
    w &&& fmt.reserved = 0#64 ↔ w.extractLsb' 32 24 = 0#24 ∧ fmt.OperandClear w := by
  have hmask : w &&& fmt.reserved = 0#64 ↔ ∀ i < 64, fmt.reserves i = true → w.getLsbD i = false := by
    rw [and_eq_zero_iff]
    exact forall₂_congr fun i hi => by rw [fmt.reserved_getLsbD hi]
  rw [hmask]
  cases fmt <;> simp only [OperandClear, extractLsb'_eq_zero_iff] <;> grind [Format.reserves]

/-! ## A decoded command's word (30_encoding.md R84, R85) -/

/-- A word is its opcode, the 24 bits every format reserves, and its operand field. -/
theorem word_eq_fields (w : CommandWord) : opcodeByte w ++ w.extractLsb' 32 24 ++ operandField w = w := by
  have hhigh := BitVec.extractLsb'_append_extractLsb'_eq_extractLsb' (x := w) (len₁ := 24) (len₂ := 8)
    (show 56 = 32 + 24 from rfl)
  have hall := BitVec.extractLsb'_append_extractLsb'_eq_extractLsb' (x := w) (len₁ := 32) (len₂ := 32)
    (show 32 = 0 + 32 from rfl)
  rw [opcodeByte, operandField, hhigh, hall, BitVec.extractLsb'_eq_self]

theorem operandField_getLsbD (w : CommandWord) {i : Nat} (hi : i < 32) :
    (operandField w).getLsbD i = w.getLsbD i := by
  simp [operandField, hi]

/-- Format L's operand field, written again from the bit read. -/
theorem operandL_extract {w : CommandWord} (h : Format.L.OperandClear w) :
    operandL (w.extractLsb' 0 1) = operandField w := by
  have hclear := (extractLsb'_eq_zero_iff w 1 31).1 h
  apply BitVec.eq_of_getLsbD_eq
  intro i hi
  rw [operandL_getLsbD, operandField_getLsbD w hi, BitVec.getLsbD_extractLsb']
  rcases i with _ | i
  · simp
  · simp [hclear (i + 1) (by omega) (by omega)]

/-- Format B's operand field, written again from the fields read. -/
theorem operandB_extract {w : CommandWord} (h : Format.B.OperandClear w) :
    operandB (w.extractLsb' 28 3) (w.extractLsb' 16 8) (w.extractLsb' 0 16) = operandField w := by
  have htop := (extractLsb'_eq_zero_iff w 31 1).1 h.1
  have hspare := (extractLsb'_eq_zero_iff w 24 4).1 h.2
  apply BitVec.eq_of_getLsbD_eq
  intro i hi
  rw [operandB_getLsbD, operandField_getLsbD w hi]
  simp only [BitVec.getLsbD_extractLsb']
  grind

/-- The operands a word is decoded to are the ones its operand field holds. -/
theorem operand_assemble {op : Opcode} {w : CommandWord} (h : op.format.OperandClear w) :
    (op.assemble w).operand = operandField w := by
  cases op
  case BEGIN | EDGE => exact operandL_extract h
  case BUILD_REQUEST | BUILD_RESPONSE => exact operandB_extract h
  case END | IS_READY | PROCESS | GET_LAST_RESPONSE | GET_LAST_RESPONSE_STATUS | GET_STATUS => exact h.symm
  all_goals rfl

/-- Settles O2: the encoder writes the opcode, the reserved bits and the operand field that the decoder read. -/
theorem encodeOfDecode : Obligations.EncodeOfDecode := by
  intro w i h
  obtain ⟨op, hcode, hreserved, rfl⟩ := decode_eq_ok h
  obtain ⟨hmiddle, hoperand⟩ := (op.format.and_reserved_eq_zero_iff w).1 hreserved
  rw [encode, opcode_assemble, operand_assemble hoperand, hcode, ← hmiddle, word_eq_fields]

/-! ## An encoded command's meaning (30_encoding.md R85, R87) -/

theorem operandL_clear (code : BitVec 8) (b : Bit) : Format.L.OperandClear (code ++ 0#24 ++ operandL b) := by
  rw [Format.OperandClear, extract_word _ _ (by omega), extractLsb'_eq_zero_iff]
  intro i hlo _
  rw [operandL_getLsbD, BitVec.getLsbD_of_ge _ _ hlo]

theorem operandB_clear (code : BitVec 8) (type : BitVec 3) (id : BitVec 8) (value : BitVec 16) :
    Format.B.OperandClear (code ++ 0#24 ++ operandB type id value) := by
  rw [Format.OperandClear, extract_word _ _ (by omega), extract_word _ _ (by omega), extractLsb'_eq_zero_iff,
    extractLsb'_eq_zero_iff]
  refine ⟨fun i hlo hhi => ?_, fun i hlo hhi => ?_⟩ <;> rw [operandB_getLsbD] <;> grind

/-- The encoder clears the operand field's reserved bits. -/
theorem operandClear_encode (i : Instr) : i.opcode.format.OperandClear (encode i) := by
  cases i
  case beginSession | edge => exact operandL_clear _ _
  case buildRequest | buildResponse => exact operandB_clear _ _ _ _
  case endSession | isReady | process | getLastResponse | getLastResponseStatus | getStatus =>
    exact operandField_word _ operandN
  all_goals trivial

/-- The encoder clears every bit that its command's format reserves. -/
theorem encode_and_reserved (i : Instr) : encode i &&& i.opcode.format.reserved = 0#64 := by
  have hmiddle : (encode i).extractLsb' 32 24 = 0#24 := by
    rw [extractLsb'_eq_zero_iff]
    intro j hlo hhi
    rw [encode, word_getLsbD, if_neg (by omega), if_pos hhi]
  exact (Format.and_reserved_eq_zero_iff _ _).2 ⟨hmiddle, operandClear_encode i⟩

/-! The fields of the operand field are the operands it was written from. -/

theorem extract_operandL (code : BitVec 8) (b : Bit) :
    (code ++ 0#24 ++ operandL b : CommandWord).extractLsb' 0 1 = b := by
  rw [extract_word _ _ (by omega)]
  apply BitVec.eq_of_getLsbD_eq
  intro i hi
  simp [operandL_getLsbD, hi]

theorem extract_operandB (code : BitVec 8) (type : BitVec 3) (id : BitVec 8) (value : BitVec 16) :
    (code ++ 0#24 ++ operandB type id value : CommandWord).extractLsb' 28 3 = type ∧
    (code ++ 0#24 ++ operandB type id value : CommandWord).extractLsb' 16 8 = id ∧
    (code ++ 0#24 ++ operandB type id value : CommandWord).extractLsb' 0 16 = value := by
  refine ⟨?_, ?_, ?_⟩ <;> rw [extract_word _ _ (by omega)] <;> apply BitVec.eq_of_getLsbD_eq <;> intro i hi <;>
    rw [BitVec.getLsbD_extractLsb', operandB_getLsbD] <;> grind

/-- The decoder reads from a command's word the operands it was written from. -/
theorem assemble_encode (i : Instr) : i.opcode.assemble (encode i) = i := by
  cases i
  case beginSession b => exact congrArg Instr.beginSession (extract_operandL _ b)
  case edge pin => exact congrArg Instr.edge (extract_operandL _ pin)
  case buildRequest | buildResponse =>
    simp only [Opcode.assemble, Instr.opcode, encode, Instr.operand, extract_operandB]
  case endSession | isReady | process | getLastResponse | getLastResponseStatus | getStatus => rfl
  all_goals simp only [Opcode.assemble, Instr.opcode, encode, Instr.operand, operandField_word]

/-- Settles O1: the word has the command's opcode and no reserved bit set, and holds its operands. -/
theorem decodeOfEncode : Obligations.DecodeOfEncode := by
  intro i
  have hopcode : opcodeByte (encode i) = i.opcode.code := opcodeByte_word _ _
  rw [decode_of_opcode hopcode (encode_and_reserved i), assemble_encode]

/-- Settles O6: every opcode and every format once, on words written out by hand. -/
theorem writtenWordsDecode : Obligations.WrittenWordsDecode := by
  unfold Obligations.WrittenWordsDecode
  decide

/-! ## The opcode table (30_encoding.md R91) -/

/-- Which words decode to a command of a row. -/
theorem exists_decode_iff (w : CommandWord) (op : Opcode) :
    (∃ i, decode w = .ok i ∧ i.opcode = op) ↔ opcodeByte w = op.code ∧ w &&& op.format.reserved = 0#64 := by
  constructor
  · rintro ⟨i, hdecode, rfl⟩
    obtain ⟨op, hcode, hreserved, rfl⟩ := decode_eq_ok hdecode
    rw [opcode_assemble]
    exact ⟨hcode.symm, hreserved⟩
  · rintro ⟨hcode, hreserved⟩
    exact ⟨_, decode_of_opcode hcode hreserved, opcode_assemble op w⟩

/-- A row's mask is the opcode byte and the bits that its format reserves. -/
theorem tableMask_eq (op : Opcode) : op.tableMask = BitVec.allOnes 8 ++ op.format.reserved.extractLsb' 0 56 := by
  cases op <;> decide

/-- No format reserves a bit of the opcode byte. -/
theorem reserved_eq (fmt : Format) : fmt.reserved = 0#8 ++ fmt.reserved.extractLsb' 0 56 := by
  cases fmt <;> decide

theorem tableMatch_eq (op : Opcode) : op.tableMatch = op.code ++ 0#56 := by
  cases op <;> decide

/-- A word is its opcode byte and the 56 bits below it. -/
theorem word_eq_opcodeByte_append (w : CommandWord) : w = opcodeByte w ++ w.extractLsb' 0 56 := by
  rw [opcodeByte, BitVec.extractLsb'_append_extractLsb'_eq_extractLsb' (show 56 = 0 + 56 from rfl),
    BitVec.extractLsb'_eq_self]

/-- Words put together from an upper and a lower part are equal exactly when the parts are. -/
theorem append_eq_append_iff {m n : Nat} {a b : BitVec m} {c d : BitVec n} : a ++ c = b ++ d ↔ a = b ∧ c = d := by
  refine ⟨fun h => ?_, fun ⟨hupper, hlower⟩ => by rw [hupper, hlower]⟩
  have hupper : a = b := by
    simpa only [BitVec.extractLsb'_append_eq_left] using congrArg (BitVec.extractLsb' n m) h
  subst hupper
  exact ⟨rfl, (BitVec.append_right_inj a).1 h⟩

/-- Settles O3: the mask compares the opcode byte and tests the reserved bits. -/
theorem decodeIsTableMatch : Obligations.DecodeIsTableMatch := by
  intro w op
  have hmask : w &&& op.tableMask =
      opcodeByte w ++ (w.extractLsb' 0 56 &&& op.format.reserved.extractLsb' 0 56) := by
    conv_lhs => rw [word_eq_opcodeByte_append w, tableMask_eq]
    exact BitVec.and_append.trans (by rw [BitVec.and_allOnes])
  have hreserved : w &&& op.format.reserved =
      0#8 ++ (w.extractLsb' 0 56 &&& op.format.reserved.extractLsb' 0 56) := by
    conv_lhs => rw [word_eq_opcodeByte_append w, reserved_eq]
    exact BitVec.and_append.trans (by rw [BitVec.and_zero])
  have hclear : w &&& op.format.reserved = 0#64 ↔
      w.extractLsb' 0 56 &&& op.format.reserved.extractLsb' 0 56 = 0#56 := by
    rw [hreserved]
    exact BitVec.append_right_inj (t₂ := 0#56) 0#8
  rw [exists_decode_iff, hmask, hclear, tableMatch_eq, append_eq_append_iff]

/-! ## Words that are no command (30_encoding.md R89, R90) -/

theorem decode_eq_reservedOpcode_iff (w : CommandWord) :
    decode w = .error .reservedOpcode ↔ Opcode.ofByte (opcodeByte w) = none := by
  unfold decode
  cases Opcode.ofByte (opcodeByte w) with
  | none => simp
  | some op =>
    dsimp only
    split <;> simp

/-- The gaps in the map of 30_encoding.md R86. -/
theorem ofByte_eq_none_iff (b : BitVec 8) :
    Opcode.ofByte b = none ↔ b = 0x00#8 ∨ (0x0B#8 ≤ b ∧ b ≤ 0x0F#8) ∨ 0x1A#8 ≤ b := by
  revert b
  decide

theorem decode_eq_reservedBits_iff {w : CommandWord} {op : Opcode} (h : opcodeByte w = op.code) :
    decode w = .error .reservedBits ↔ w &&& op.format.reserved ≠ 0#64 := by
  simp only [decode, h, ofByte_code]
  split <;> simp_all

end Sys2Proof

namespace Sys2Proof.Machine

/-- A word that is no command discards the whole event, the pre-step included (00_scope.md R16). -/
theorem step_undecodable {w : CommandWord} {e : DecodeError} (hdecode : decode w = .error e) {s : State} {now : Nat}
    {rest : List Arrival} (hlegal : s.cfg.Legal) (harr : s.arrivals = .command now w :: rest) :
    ∃ t, step s = .next t ∧ t.regs = s.regs ∧ t.cfg = s.cfg ∧ t.arrivals = rest ∧
      t.out = { res := 0#32, ok := false, cmdErr := true, done := false, rstat := .none } :=
  ⟨_, step_badCommand ((legal_iff s.cfg).2 hlegal) harr hdecode, rfl, rfl, rfl, rfl⟩

/-- Settles O4. -/
theorem reservedOpcodeIsCommandError : Obligations.ReservedOpcodeIsCommandError := fun w =>
  ⟨(decode_eq_reservedOpcode_iff w).trans (ofByte_eq_none_iff _), fun hdecode _ _ _ => step_undecodable hdecode⟩

/-- Settles O5: the reserved mask, read field by field. -/
theorem reservedBitIsCommandError : Obligations.ReservedBitIsCommandError := by
  intro op w hcode
  refine ⟨?_, fun hdecode _ _ _ => step_undecodable hdecode⟩
  rw [decode_eq_reservedBits_iff hcode, ne_eq, Format.and_reserved_eq_zero_iff, not_and_or]
  cases op.format <;> simp only [Format.OperandClear, not_and_or, not_true, ne_eq]

end Sys2Proof.Machine

/-! PROOFS. The SEND_REQUEST loop, tick by tick (30_encoding.md R96; 41_transceiver_ops.md R171). -/

namespace Sys2Proof.Machine

/-! ## One tick -/

/-- The state a command presented alone at `t` is executed in, after the pre-step. -/
def State.atEvent (s : State) (t : Nat) : State := (s.accept t []).preStep

@[simp] theorem State.atEvent_cfg (s : State) (t : Nat) : (s.atEvent t).cfg = s.cfg := by simp [atEvent]
@[simp] theorem State.atEvent_now (s : State) (t : Nat) : (s.atEvent t).now = stamp s.cfg.tsW t := by simp [atEvent]

/-- After the pre-step no transmission's 34 bit periods are over. -/
theorem State.atEvent_sent (s : State) (t : Nat) : (s.atEvent t).sent = false := by
  rcases (s.accept t []).preStep_cases with ⟨-, -, -, heq⟩ | ⟨hsent, heq⟩ <;> rw [atEvent, heq]
  · exact sent_eq_false_of_status _ (afterSending_ne _)
  · exact hsent

/-- No pre-step acts on a block that is not sending. -/
theorem State.atEvent_of_status {s : State} (h : s.regs.status ≠ .requestSending) (t : Nat) :
    s.atEvent t = s.accept t [] := preStep_of_status _ h

section

variable {s : State} (hlegal : s.cfg.Legal)
include hlegal

theorem step_present_command (t : Nat) (i : Instr) :
    step (s.present (.command t (encode i))) = exec i (s.accept t []) :=
  step_command (s := s.present _) ((legal_iff s.cfg).2 hlegal) rfl (decodeOfEncode i)

theorem step_present_poll (t : Nat) :
    step (s.present (.command t (encode .process))) = .next (s.atEvent t).poll := by
  rw [step_present_command hlegal, exec_process, State.atEvent]

theorem step_present_edge (t : Nat) (l : Level) :
    step (s.present (.edge t (pinOfLevel s.cfg l))) = .next ((s.atEvent t).onEdge l) := by
  have hstep : step (s.present (.edge t (pinOfLevel s.cfg l))) = exec (.edge (pinOfLevel s.cfg l)) (s.accept t []) :=
    step_edge (s := s.present _) ((legal_iff s.cfg).2 hlegal) rfl
  rw [hstep, exec_edge, s.accept_cfg, levelOfPin_pinOfLevel, State.atEvent]

/-- A poll that makes no report is followed by the rest of the loop. -/
theorem pollLoop_poll_quiet {t : Nat} (h : (s.atEvent t).poll.out.done = false) (es : List Tick) :
    pollLoop (.poll t :: es) s = pollLoop es (s.atEvent t).poll := by
  simp [pollLoop, Tick.arrival, step_present_poll hlegal, h]

/-- The first report ends the loop. -/
theorem pollLoop_poll_report {t : Nat} {v : Word32} {st : RespStatus} (h : (s.atEvent t).poll.out = Out.report v st)
    (es : List Tick) : pollLoop (.poll t :: es) s = some (if st = .success then v else 0#32) := by
  simp [pollLoop, Tick.arrival, step_present_poll hlegal, h, Out.report]

/-- An edge makes no report. -/
theorem pollLoop_edge (t : Nat) (l : Level) (es : List Tick) :
    pollLoop (.edge t (pinOfLevel s.cfg l) :: es) s = pollLoop es ((s.atEvent t).onEdge l) := by
  simp [pollLoop, Tick.arrival, step_present_edge hlegal, State.onEdge_out, Out.default]

end

/-! ## What decides the result -/

/-- PROCESS answers a report, whose status is not NONE, or none (41_transceiver_ops.md R166 to R168). -/
theorem State.poll_out (s : State) :
    s.poll.out = Out.default ∨ ∃ v st, st ≠ .none ∧ s.poll.out = Out.report v st := by
  rcases s.poll_cases with h | ⟨-, -, h⟩ | ⟨-, -, h⟩ | ⟨-, -, h⟩ | ⟨-, h⟩ | ⟨-, h⟩ | ⟨-, -, h⟩ <;> rw [h]
  · exact .inl rfl
  · exact .inl rfl
  · exact .inl rfl
  · exact .inr ⟨0#32, .timeout, nofun, rfl⟩
  · exact .inr ⟨s.regs.rxReg, .invalid, nofun, rfl⟩
  · exact .inr ⟨s.regs.rxReg, .success, nofun, rfl⟩
  · exact .inl rfl

/-- PROCESS at any time in RESPONSE_INVALID (41_transceiver_ops.md R167). -/
theorem State.atEvent_poll_of_invalid {s : State} (h : s.regs.status = .responseInvalid) (t : Nat) :
    (s.atEvent t).poll.out = Out.report s.regs.rxReg .invalid := by
  rw [atEvent_of_status (by simp [h])]
  simp [poll, h]

/-- PROCESS at any time in RESPONSE_READY (41_transceiver_ops.md R168). -/
theorem State.atEvent_poll_of_ready {s : State} (h : s.regs.status = .responseReady) (t : Nat) :
    (s.atEvent t).poll.out = Out.report s.regs.rxReg .success := by
  rw [atEvent_of_status (by simp [h])]
  simp [poll, h]

theorem sendRequestSync_of_rejected {s v : State} {f : Word32} {t0 : Nat} (es : List Tick)
    (hstep : step (s.present (.command t0 (encode (.sendRequestAsync f)))) = .next v) (hok : v.out.ok = false) :
    sendRequestSync f t0 es s = some 0#32 := by
  simp [sendRequestSync, hstep, hok]

theorem sendRequestSync_of_accepted {s v : State} {f : Word32} {t0 : Nat} (es : List Tick)
    (hstep : step (s.present (.command t0 (encode (.sendRequestAsync f)))) = .next v) (hok : v.out.ok = true) :
    sendRequestSync f t0 es s = pollLoop es v := by
  simp [sendRequestSync, hstep, hok]

/-- Settles O57: quiet ticks carry the loop on, and the poll after them ends it if it reports. -/
theorem firstReportDecides : Obligations.FirstReportDecides := by
  intro s v f t0 ticks hstep
  refine ⟨sendRequestSync_of_rejected ticks hstep, fun hok u hquiet => ?_⟩
  have hlegal : u.cfg.Legal := by
    obtain ⟨hc, -⟩ := step_cases hstep
    have hcfg : u.cfg = s.cfg := (quietRun_cfg hquiet).trans (step_cfg (s := s.present _) hstep)
    exact hcfg ▸ (legal_iff _).1 hc
  refine ⟨?_, fun now more => ?_⟩
  · rw [sendRequestSync_of_accepted _ hstep hok]
    simpa [pollLoop] using pollLoop_append [] hquiet
  intro result
  have hresult : result = pollLoop (.poll now :: more) u :=
    (sendRequestSync_of_accepted _ hstep hok).trans (pollLoop_append _ hquiet)
  rw [hresult]
  refine ⟨fun t ht hdone => ?_, fun h => ?_, fun h => ?_⟩
  · rw [step_present_poll hlegal] at ht
    cases ht
    rcases (u.atEvent now).poll_out with hout | ⟨w, st, hst, hout⟩
    · rw [hout] at hdone
      cases hdone
    rw [pollLoop_poll_report hlegal hout, hout]
    cases st <;> simp_all [Out.report]
  · exact pollLoop_poll_report hlegal (State.atEvent_poll_of_invalid h now) more
  · exact pollLoop_poll_report hlegal (State.atEvent_poll_of_ready h now) more

end Sys2Proof.Machine

/-! PROOFS. The clock of an exchange whose host keeps the timestamp discipline, and the wait for the reply
(41_transceiver_ops.md R150, R166; 70_reset_and_hazards.md R276). -/

namespace Sys2Proof.Machine

/-! ## The clock -/

theorem elapsed_of_le {w t t0 : Nat} (hle : t0 ≤ t) (hlt : t - t0 < 2 ^ w) : elapsed w t t0 = t - t0 := by
  simpa [Nat.add_sub_cancel' hle] using elapsed_add t0 hlt

theorem two_pow_pred_le (w : Nat) : 2 ^ (w - 1) ≤ 2 ^ w := Nat.pow_le_pow_right (by decide) (Nat.sub_le w 1)

/-- The discipline is kept; the last event was at `last`, and the deadline is measured from `ref`, in unbounded time. -/
structure State.Clock (s : State) (ref last : Nat) : Prop where
  disciplined : s.undisciplined = false
  now_eq : s.now = stamp s.cfg.tsW last
  reference_eq : s.reference = stamp s.cfg.tsW ref
  ref_le : ref ≤ last

/-- Outside REQUEST_SENDING the reference is `tRef`. -/
theorem State.reference_of_status {s : State} (h : s.regs.status ≠ .requestSending) : s.reference = s.regs.tRef := by
  unfold reference
  cases hs : s.regs.status <;> simp_all

theorem State.reference_of_sending {s : State} (h : s.regs.status = .requestSending) :
    s.reference = s.regs.txStart := by
  simp [reference, h]

namespace State.Clock

variable {s : State} {ref last : Nat}

/-- An event less than half the timestamp range after the reference keeps the discipline. -/
theorem accept (h : s.Clock ref last) {t : Nat} (hlast : last ≤ t) (hnear : t - ref < 2 ^ (s.cfg.tsW - 1)) :
    (s.accept t []).Clock ref t := by
  have href := h.ref_le
  have hwidth := two_pow_pred_le s.cfg.tsW
  refine ⟨?_, rfl, h.reference_eq, href.trans hlast⟩
  have hnow : elapsed s.cfg.tsW t s.now = t - last := by
    rw [h.now_eq, elapsed_stamp_right, elapsed_of_le hlast (by omega)]
  have hreference : elapsed s.cfg.tsW t s.reference = t - ref := by
    rw [h.reference_eq, elapsed_stamp_right, elapsed_of_le (by omega) (by omega)]
  have hkept := s.accept_undisciplined_iff t []
  rw [hnow, hreference, h.disciplined] at hkept
  rw [← Bool.not_eq_true, hkept]
  rintro (h | ⟨-, h | h⟩)
  · cases h
  · omega
  · omega

theorem timeSince_reference (h : s.Clock ref last) (hnear : last - ref < 2 ^ (s.cfg.tsW - 1)) :
    s.timeSince s.now s.reference = last - ref := by
  have hwidth := two_pow_pred_le s.cfg.tsW
  rw [timeSince_of_disciplined _ h.disciplined, h.now_eq, h.reference_eq, elapsed_stamp, elapsed_stamp_right,
    elapsed_of_le h.ref_le (by omega)]

theorem sinceRef_eq (h : s.Clock ref last) (hs : s.regs.status ≠ .requestSending)
    (hnear : last - ref < 2 ^ (s.cfg.tsW - 1)) : s.sinceRef = last - ref := by
  rw [sinceRef, ← reference_of_status hs, h.timeSince_reference hnear]

theorem sinceStart_eq (h : s.Clock ref last) (hs : s.regs.status = .requestSending)
    (hnear : last - ref < 2 ^ (s.cfg.tsW - 1)) : s.sinceStart = last - ref := by
  rw [sinceStart, ← reference_of_sending hs, h.timeSince_reference hnear]

theorem answer (h : s.Clock ref last) (o : Out) : (s.answer o).Clock ref last :=
  ⟨h.disciplined, h.now_eq, h.reference_eq, h.ref_le⟩

/-- Registers that leave the reference leave the clock. -/
theorem setRegs (h : s.Clock ref last) {r : Regs} (hs : s.regs.status ≠ .requestSending)
    (hr : r.status ≠ .requestSending) (htRef : r.tRef = s.regs.tRef) (o : Out) :
    ((s.setRegs r).answer o).Clock ref last := by
  refine ⟨h.disciplined, h.now_eq, ?_, h.ref_le⟩
  rw [reference_of_status hr]
  exact htRef.trans (by rw [← reference_of_status hs, h.reference_eq]; rfl)

/-- Registers with `tRef <- now` start the clock again. -/
theorem restart (h : s.Clock ref last) {r : Regs} (hr : r.status ≠ .requestSending) (htRef : r.tRef = s.now) (o : Out) :
    ((s.setRegs r).answer o).Clock last last := by
  refine ⟨h.disciplined, h.now_eq, ?_, le_rfl⟩
  rw [reference_of_status hr]
  exact htRef.trans h.now_eq

/-- The pre-step of a finished transmission takes its end as the reference (41_transceiver_ops.md R150). -/
theorem endSending (h : s.Clock ref last) (hs : s.regs.status = .requestSending) (hover : ref + 34 * s.cfg.tBit ≤ last) :
    (s.setRegs (s.regs.enter s.afterSending s.txEnd)).Clock (ref + 34 * s.cfg.tBit) last := by
  refine ⟨h.disciplined, h.now_eq, ?_, hover⟩
  have htxStart := h.reference_eq
  rw [reference_of_sending hs] at htxStart
  rw [reference_of_status s.afterSending_ne]
  simp [txEnd, htxStart, addTime, stamp]

end State.Clock

/-! ## The wait for the reply -/

/-- The request accepted at `t0` is being sent, or its reply is awaited; the last event was at `last`. -/
inductive State.RequestOut (t0 last : Nat) (s : State) : Prop
  | sending (status : s.regs.status = .requestSending) (kind : s.regs.txKind = .request) (clock : s.Clock t0 last)
  | waiting (status : s.regs.status = .responseWaiting) (clock : s.Clock (t0 + 34 * s.cfg.tBit) last)

/-- An accepted request is out (41_transceiver_ops.md R157). -/
theorem step_sendRequest {s : State} (hlegal : s.cfg.Legal) {t0 : Nat} (hready : (s.atEvent t0).regs.status = .ready)
    (hmaster : (s.atEvent t0).regs.role = .master) (f : Word32) :
    ∃ v, step (s.present (.command t0 (encode (.sendRequestAsync f)))) = .next v ∧ v.out.ok = true ∧
      v.cfg = s.cfg ∧ v.RequestOut t0 t0 := by
  have hstep := step_present_command hlegal t0 (.sendRequestAsync f)
  rw [exec_sendRequestAsync, ← State.atEvent, State.sendRequest, if_pos ⟨hready, hmaster⟩] at hstep
  have hnow : (s.atEvent t0).now = stamp (s.atEvent t0).cfg.tsW t0 := by simp
  exact ⟨_, hstep, rfl, s.atEvent_cfg t0, .sending rfl rfl ⟨rfl, hnow, hnow, le_rfl⟩⟩

namespace State.RequestOut

theorem answer {s : State} {t0 last : Nat} (h : s.RequestOut t0 last) (o : Out) : (s.answer o).RequestOut t0 last := by
  cases h with
  | sending hs hk hclock => exact .sending hs hk (hclock.answer o)
  | waiting hs hclock => exact .waiting hs (hclock.answer o)

variable {s : State} {t0 last : Nat}

/-- An event, with the pre-step of 41_transceiver_ops.md R150, leaves a request out. -/
theorem atEvent (h : s.RequestOut t0 last) {t : Nat} (hlast : last ≤ t) (hnear : t < t0 + 2 ^ (s.cfg.tsW - 1)) :
    (s.atEvent t).RequestOut t0 t := by
  cases h with
  | sending hs hk hclock =>
    have href := hclock.ref_le
    have haccept := hclock.accept hlast (by omega)
    rcases (s.accept t []).preStep_cases with ⟨-, -, hover, heq⟩ | ⟨-, heq⟩ <;> rw [State.atEvent, heq]
    · rw [haccept.sinceStart_eq hs (by rw [accept_cfg]; omega)] at hover
      have hpos := Nat.two_pow_pos (s.cfg.tsW - 1)
      exact .waiting (by simp [afterSending, hk]) (haccept.endSending hs (by omega))
    · exact .sending hs hk haccept
  | waiting hs hclock =>
    have href := hclock.ref_le
    rw [atEvent_of_status (by simp [hs])]
    exact .waiting hs (hclock.accept hlast (by omega))

variable (h : s.RequestOut t0 last) (hnear : last < t0 + 2 ^ (s.cfg.tsW - 1))
include h hnear

/-- Once the pre-step has run, the reply is awaited from the end of the 34 bit periods on. -/
theorem waiting_of_not_sent (hsent : s.sent = false) (hover : t0 + 34 * s.cfg.tBit ≤ last) :
    s.regs.status = .responseWaiting ∧ s.Clock (t0 + 34 * s.cfg.tBit) last ∧
      s.sinceRef = last - (t0 + 34 * s.cfg.tBit) := by
  cases h with
  | sending hs _ hclock =>
    have hsince := hclock.sinceStart_eq hs (by omega)
    simp only [sent, hs, hsince, decide_true, Bool.true_and, decide_eq_false_iff_not] at hsent
    omega
  | waiting hs hclock => exact ⟨hs, hclock, hclock.sinceRef_eq (by simp [hs]) (by omega)⟩

/-- A poll within the deadline goes on waiting (41_transceiver_ops.md R166). -/
theorem poll_before_deadline (hdeadline : last ≤ t0 + 34 * s.cfg.tBit + s.cfg.respTimeout) : s.poll = s.ignore := by
  cases h with
  | sending hs => simp [poll, hs]
  | waiting hs hclock =>
    have href := hclock.ref_le
    have hsince := hclock.sinceRef_eq (by simp [hs]) (by omega)
    simp only [poll, hs, pollWaiting]
    exact if_neg (by omega)

/-- A poll past the deadline reports the timeout (41_transceiver_ops.md R166). -/
theorem poll_past_deadline (hsent : s.sent = false) (hdeadline : t0 + 34 * s.cfg.tBit + s.cfg.respTimeout < last) :
    s.poll.out = Out.report 0#32 .timeout := by
  obtain ⟨hs, -, hsince⟩ := h.waiting_of_not_sent hnear hsent (by omega)
  simp only [poll, hs, pollWaiting]
  rw [if_pos (by omega), report_out]

end State.RequestOut

/-- Of polls in the order of time, one of them past the deadline, the first such reports the timeout. -/
theorem pollLoop_timeout {c : Params} (hlegal : c.Legal) {t0 last : Nat} {times : List Nat} {s : State}
    (hcfg : s.cfg = c) (hout : s.RequestOut t0 last) (horder : (last :: times).Pairwise (· ≤ ·))
    (hnear : ∀ t ∈ times, t < t0 + 2 ^ (c.tsW - 1))
    (hlate : ∃ t ∈ times, t0 + 34 * c.tBit + c.respTimeout < t) :
    pollLoop (times.map .poll) s = some 0#32 := by
  induction times generalizing s last with
  | nil => simp at hlate
  | cons t times ih =>
    obtain ⟨hfirst, horder⟩ := List.pairwise_cons.1 horder
    obtain ⟨htnear, hnear⟩ := List.forall_mem_cons.1 hnear
    have hevent := hout.atEvent (hfirst t List.mem_cons_self) (hcfg ▸ htnear)
    have hcfg' : (s.atEvent t).cfg = c := (s.atEvent_cfg t).trans hcfg
    rw [List.map_cons]
    by_cases hdeadline : t0 + 34 * c.tBit + c.respTimeout < t
    · have hreport := hevent.poll_past_deadline (hcfg' ▸ htnear) (s.atEvent_sent t) (hcfg' ▸ hdeadline)
      exact pollLoop_poll_report (hcfg ▸ hlegal) hreport _
    · have hpoll := hevent.poll_before_deadline (hcfg' ▸ htnear) (hcfg' ▸ Nat.le_of_not_lt hdeadline)
      rw [pollLoop_poll_quiet (hcfg ▸ hlegal) (by rw [hpoll]; rfl), hpoll]
      exact ih hcfg' (hevent.answer _) horder hnear (((List.exists_mem_cons_iff ..).1 hlate).resolve_left hdeadline)

/-- Settles O58: the accepted request waits, and the last poll, if none before it, is past the deadline. -/
theorem sendRequestTimesOut : Obligations.SendRequestTimesOut := by
  intro s f t0 last polls hlegal p hready hmaster horder hlate hnear
  obtain ⟨v, hstep, hok, hcfg, hout⟩ := step_sendRequest hlegal hready hmaster f
  rw [sendRequestSync_of_accepted _ hstep hok]
  have hlast : ∀ t ∈ polls ++ [last], t ≤ last := by
    obtain ⟨-, -, hpolls⟩ := List.pairwise_append.1 (List.pairwise_cons.1 horder).2
    exact List.forall_mem_append.2 ⟨fun t ht => hpolls t ht last List.mem_cons_self, by simp⟩
  exact pollLoop_timeout hlegal hcfg hout horder (fun t ht => (hlast t ht).trans_lt hnear) ⟨last, by simp, hlate⟩

end Sys2Proof.Machine

/-! PROOFS. The reception of a frame edge by edge, with the host's polls among the edges (42_receiver.md R203 to R218;
41_transceiver_ops.md R171). -/

namespace Sys2Proof

theorem Params.Legal.half_add_half {c : Params} (h : c.Legal) : c.half + c.half = c.tBit := by
  have := h.tBit_even
  rw [Params.half]
  omega

/-- A bit period is less than half the timestamp range. -/
theorem Params.Legal.tBit_lt {c : Params} (h : c.Legal) : c.tBit < 2 ^ (c.tsW - 1) := by
  have := h.frame_fits
  omega

/-- The reply starts at `t`, within `RESP_TIMEOUT` after the transmission of the request accepted at `t0`. -/
structure Params.InTime (c : Params) (t0 t : Nat) : Prop where
  timeout : t ≤ t0 + 34 * c.tBit + c.respTimeout
  sent : t0 + 34 * c.tBit ≤ t
  near : t < t0 + 2 ^ (c.tsW - 1)

end Sys2Proof

namespace Sys2Proof.Machine

/-! ## The edges a well-formed frame has left -/

/-- The edges of a frame from slot `k` on. -/
def slotsFrom (c : Params) (f : Word32) (t0 k : Nat) : List (Nat × Level) :=
  (List.range' k (34 - k)).flatMap (slotEdges c f t0)

theorem slotsFrom_eq_append (c : Params) (f : Word32) (t0 : Nat) {k : Nat} (h : k < 34) :
    slotsFrom c f t0 k = slotEdges c f t0 k ++ slotsFrom c f t0 (k + 1) := by
  rw [slotsFrom, show 34 - k = 34 - (k + 1) + 1 by omega, List.range'_succ, List.flatMap_cons]
  rfl

theorem slotsFrom_end (c : Params) (f : Word32) (t0 : Nat) : slotsFrom c f t0 34 = [] := rfl

/-- A frame begins with the two edges of its start bit. -/
theorem frameEdges_eq_cons (c : Params) (f : Word32) (t0 : Nat) :
    frameEdges c f t0 = (t0, .active) :: (t0 + c.half, .idle) :: slotsFrom c f t0 1 := by
  have hall : frameEdges c f t0 = slotsFrom c f t0 0 := by
    rw [frameEdges, slotsFrom, List.range_eq_range']
  rw [hall, slotsFrom_eq_append c f t0 (by decide)]
  simp [slotEdges, firstHalf, secondHalf]

/-- Equal bits have a boundary edge between them (42_receiver.md R216). -/
theorem slotsFrom_of_eq (c : Params) (f : Word32) (t0 : Nat) {k : Nat} (h : k ≤ 32)
    (hbit : wireBit f (k + 1) = wireBit f k) :
    slotsFrom c f t0 (k + 1) =
      (t0 + (k + 1) * c.tBit, firstHalf (wireBit f (k + 1))) ::
        (t0 + (k + 1) * c.tBit + c.half, secondHalf (wireBit f (k + 1))) :: slotsFrom c f t0 (k + 2) := by
  rw [slotsFrom_eq_append c f t0 (by omega)]
  simp [slotEdges, hbit]

/-- Different bits have only the mid-bit edge (42_receiver.md R216). -/
theorem slotsFrom_of_ne (c : Params) (f : Word32) (t0 : Nat) {k : Nat} (h : k ≤ 32)
    (hbit : wireBit f (k + 1) ≠ wireBit f k) :
    slotsFrom c f t0 (k + 1) =
      (t0 + (k + 1) * c.tBit + c.half, secondHalf (wireBit f (k + 1))) :: slotsFrom c f t0 (k + 2) := by
  rw [slotsFrom_eq_append c f t0 (by omega)]
  simp [slotEdges, hbit]

theorem secondHalf_inj {a b : Bool} : secondHalf a = secondHalf b ↔ a = b := by
  cases a <;> cases b <;> decide

/-! ## The accepted edges (42_receiver.md R205 to R212) -/

namespace State

variable {s : State} {l : Level}

theorem onEdge_start (hs : s.regs.status = .responseWaiting) (hd : s.sinceRef ≤ s.cfg.respTimeout) :
    s.onEdge .active = (s.setRegs (s.regs.startBit s.now)).answer Out.default := by
  simp only [onEdge, hs, edgeWaiting, if_neg (Nat.not_lt.2 hd)]

theorem onEdge_startMid (hs : s.regs.status = .responseStartBit) (hd : s.inHalfWindow = true) :
    s.onEdge .idle = (s.setRegs (s.regs.beginData s.now)).answer Out.default := by
  simp only [onEdge, hs, edgeStartBit, if_pos hd]

theorem onEdge_boundary (hs : s.regs.status = .responseReceiving) (hl : l ≠ s.regs.lastLevel)
    (hb : s.regs.boundarySeen = false) (hd : s.inHalfWindow = true) :
    s.onEdge l = (s.setRegs (s.regs.acceptBoundary l)).answer Out.default := by
  simp only [onEdge, hs, edgeReceiving, if_neg hl, if_pos (And.intro hb hd)]

theorem onEdge_bit (hs : s.regs.status = .responseReceiving) (hl : l ≠ s.regs.lastLevel)
    (hhalf : s.inHalfWindow = false) (hd : s.inBitWindow = true) (hi : s.regs.bitIndex < 32#6) :
    s.onEdge l = (s.setRegs (s.regs.acceptBit l s.now)).answer Out.default := by
  simp [onEdge, hs, edgeReceiving, hl, hhalf, hd, hi]

theorem onEdge_stop (hs : s.regs.status = .responseReceiving) (hl : .idle ≠ s.regs.lastLevel)
    (hhalf : s.inHalfWindow = false) (hd : s.inBitWindow = true) (hi : s.regs.bitIndex = 32#6) :
    s.onEdge .idle = (s.setRegs (s.regs.acceptStop s.now)).answer Out.default := by
  simp [onEdge, hs, edgeReceiving, hl, hhalf, hd, hi, edgeStop]

end State

/-! ## The bits received -/

/-- The first `k` data bits of `f` have been received: they are the low bits of `rxReg` (42_receiver.md R211). -/
structure Regs.Received (f : Word32) (k : Nat) (r : Regs) : Prop where
  status : r.status = .responseReceiving
  bitIndex : r.bitIndex = BitVec.ofNat 6 k
  bits : ∀ i < k, r.rxReg.getLsbD i = f.getLsbD (32 - k + i)

theorem shiftIn_getLsbD_zero (v : Word32) (b : Bit) : (shiftIn v b).getLsbD 0 = b.getLsbD 0 := by
  simp [shiftIn]

theorem shiftIn_getLsbD_succ (v : Word32) (b : Bit) {i : Nat} (h : i + 1 < 32) :
    (shiftIn v b).getLsbD (i + 1) = v.getLsbD i := by
  simp [shiftIn, h, BitVec.getLsbD_eq_getElem (show i < 32 by omega)]

theorem bitOf_secondHalf (b : Bool) : bitOf (secondHalf b) = BitVec.ofBool b := by
  cases b <;> rfl

namespace Regs.Received

variable {f : Word32} {r : Regs} {k : Nat}

theorem beginData (f : Word32) (r : Regs) (t : Nat) : (r.beginData t).Received f 0 := ⟨rfl, rfl, nofun⟩

/-- The next bit is shifted in below the ones received. -/
theorem acceptBit (h : r.Received f k) (hk : k < 32) (t : Nat) :
    (r.acceptBit (secondHalf (wireBit f (k + 1))) t).Received f (k + 1) := by
  refine ⟨h.status, ?_, fun i hi => ?_⟩
  · rw [acceptBit_bitIndex, h.bitIndex, BitVec.ofNat_add]
  · rw [acceptBit_rxReg, bitOf_secondHalf]
    cases i with
    | zero =>
      rw [shiftIn_getLsbD_zero, wireBit_data f hk, show 32 - (k + 1) + 0 = 31 - k by omega]
      simp
    | succ i =>
      rw [shiftIn_getLsbD_succ _ _ (by omega), h.bits i (by omega), show 32 - (k + 1) + (i + 1) = 32 - k + i by omega]

/-- All 32 bits are the frame. -/
theorem rxReg_eq (h : r.Received f 32) : r.rxReg = f :=
  BitVec.eq_of_getLsbD_eq fun i hi => by simpa using h.bits i hi

theorem bitIndex_lt (h : r.Received f k) (hk : k < 32) : r.bitIndex < 32#6 := by
  rw [h.bitIndex]
  bv_omega

end Regs.Received

/-! ## The windows (42_receiver.md R207, R210, R211) -/

namespace State.Clock

variable {s : State} {ref last : Nat} (h : s.Clock ref last) (hlegal : s.cfg.Legal)
  (hs : s.regs.status ≠ .requestSending)
include h hlegal hs

/-- Half a bit period after the reference is in the half window. -/
theorem inHalfWindow (hlast : last = ref + s.cfg.half) : s.inHalfWindow = true := by
  have hhalf := hlegal.half_add_half
  have htBit := hlegal.tBit_lt
  have hsince : s.sinceRef = s.cfg.half := by
    rw [h.sinceRef_eq hs (by omega), hlast, Nat.add_sub_cancel_left]
  simp [State.inHalfWindow, hsince, hlegal.halfMin_le, hlegal.half_le]

/-- A bit period after the reference is in the bit window and past the half window. -/
theorem inBitWindow (hlast : last = ref + s.cfg.tBit) : s.inHalfWindow = false ∧ s.inBitWindow = true := by
  have htBit := hlegal.tBit_lt
  have hsince : s.sinceRef = s.cfg.tBit := by
    rw [h.sinceRef_eq hs (by omega), hlast, Nat.add_sub_cancel_left]
  have hpast : s.cfg.halfMax < s.cfg.tBit := hlegal.windows_disjoint.trans_le hlegal.bitMin_le
  simp [State.inHalfWindow, State.inBitWindow, hsince, hpast, hlegal.bitMin_le, hlegal.tBit_le]

/-- PROCESS before the start bit's mid-bit edge is late (41_transceiver_ops.md R164). -/
theorem poll_startBit (hstart : s.regs.status = .responseStartBit) (hlast : last ≤ ref + s.cfg.half) :
    s.poll = s.ignore := by
  have hhalf := hlegal.half_add_half
  have htBit := hlegal.tBit_lt
  have hle := hlegal.half_le
  simp only [poll, hstart, pollStartBit]
  exact if_neg (by rw [h.sinceRef_eq hs (by omega)]; omega)

/-- PROCESS before the next mid-bit edge is late (41_transceiver_ops.md R165). -/
theorem poll_receiving (hreceiving : s.regs.status = .responseReceiving) (hlast : last ≤ ref + s.cfg.tBit) :
    s.poll = s.ignore := by
  have htBit := hlegal.tBit_lt
  have hle := hlegal.tBit_le
  simp only [poll, hreceiving, pollReceiving]
  exact if_neg (by rw [h.sinceRef_eq hs (by omega)]; omega)

end State.Clock

/-! ## The reply on its way in -/

/-- A block that has taken the edges of `f`, starting at `start`, up to `last`, with the edges that are left. -/
inductive State.Expects (c : Params) (f : Word32) (t0 start last : Nat) (s : State) : List (Nat × Level) → Prop
  | start (request : s.RequestOut t0 last) :
    s.Expects c f t0 start last ((start, .active) :: (start + c.half, .idle) :: slotsFrom c f start 1)
  | startMid (status : s.regs.status = .responseStartBit) (clock : s.Clock start last) :
    s.Expects c f t0 start last ((start + c.half, .idle) :: slotsFrom c f start 1)
  | boundary {k : Nat} (slot_le : k ≤ 32) (received : s.regs.Received f k) (boundarySeen : s.regs.boundarySeen = false)
    (level : firstHalf (wireBit f (k + 1)) ≠ s.regs.lastLevel)
    (clock : s.Clock (start + k * c.tBit + c.half) last) :
    s.Expects c f t0 start last ((start + (k + 1) * c.tBit, firstHalf (wireBit f (k + 1))) ::
      (start + (k + 1) * c.tBit + c.half, secondHalf (wireBit f (k + 1))) :: slotsFrom c f start (k + 2))
  | mid {k : Nat} (slot_le : k ≤ 32) (received : s.regs.Received f k)
    (level : secondHalf (wireBit f (k + 1)) ≠ s.regs.lastLevel)
    (clock : s.Clock (start + k * c.tBit + c.half) last) :
    s.Expects c f t0 start last ((start + (k + 1) * c.tBit + c.half, secondHalf (wireBit f (k + 1))) ::
      slotsFrom c f start (k + 2))
  | complete (status : s.regs.status = .responseReady) (rxReg : s.regs.rxReg = f) : s.Expects c f t0 start last []

namespace State.Expects

variable {c : Params} {f : Word32} {t0 start last : Nat} {s : State}

/-- After slot `k` the next edge is a boundary edge or a mid-bit edge, as the next bit is (42_receiver.md R216). -/
theorem afterSlot {k : Nat} (hk : k ≤ 32) (hreceived : s.regs.Received f k) (hboundary : s.regs.boundarySeen = false)
    (hlevel : s.regs.lastLevel = secondHalf (wireBit f k))
    (hclock : s.Clock (start + k * c.tBit + c.half) last) :
    s.Expects c f t0 start last (slotsFrom c f start (k + 1)) := by
  by_cases hbit : wireBit f (k + 1) = wireBit f k
  · rw [slotsFrom_of_eq _ _ _ hk hbit]
    refine .boundary hk hreceived hboundary ?_ hclock
    rw [hlevel, hbit, ne_eq, firstHalf_eq_secondHalf]
    simp
  · rw [slotsFrom_of_ne _ _ _ hk hbit]
    refine .mid hk hreceived ?_ hclock
    rw [hlevel]
    exact mt secondHalf_inj.1 hbit

theorem answer {es : List (Nat × Level)} (h : s.Expects c f t0 start last es) (o : Out) :
    (s.answer o).Expects c f t0 start last es := by
  cases h with
  | start request => exact .start (request.answer o)
  | startMid hs hclock => exact .startMid hs (hclock.answer o)
  | boundary hk hreceived hboundary hlevel hclock => exact .boundary hk hreceived hboundary hlevel (hclock.answer o)
  | mid hk hreceived hlevel hclock => exact .mid hk hreceived hlevel (hclock.answer o)
  | complete hs hrxReg => exact .complete hs hrxReg

/-- An event not later than the next edge, with its pre-step, leaves the edges that are left. -/
theorem atEvent {t : Nat} {e : Nat × Level} {es : List (Nat × Level)} (h : s.Expects c f t0 start last (e :: es))
    (hcfg : s.cfg = c) (hlegal : c.Legal) (hreply : c.InTime t0 start) (hlast : last ≤ t) (ht : t ≤ e.1) :
    (s.atEvent t).Expects c f t0 start t (e :: es) := by
  subst hcfg
  have hhalf := hlegal.half_add_half
  have htBit := hlegal.tBit_lt
  cases h with
  | start request => exact .start (request.atEvent hlast (ht.trans_lt hreply.near))
  | startMid hs hclock =>
    rw [atEvent_of_status (by simp [hs])]
    exact .startMid hs (hclock.accept hlast (by omega))
  | @boundary k hk hreceived hboundary hlevel hclock =>
    have hslot := Nat.add_one_mul k s.cfg.tBit
    rw [atEvent_of_status (by simp [hreceived.status])]
    exact .boundary hk hreceived hboundary hlevel (hclock.accept hlast (by omega))
  | @mid k hk hreceived hlevel hclock =>
    have hslot := Nat.add_one_mul k s.cfg.tBit
    rw [atEvent_of_status (by simp [hreceived.status])]
    exact .mid hk hreceived hlevel (hclock.accept hlast (by omega))

variable {e : Nat × Level} {es : List (Nat × Level)} (hcfg : s.cfg = c) (hlegal : c.Legal) (hreply : c.InTime t0 start)
include hcfg hlegal hreply

/-- A poll not later than the next edge changes nothing (42_receiver.md R218). -/
theorem poll_eq_ignore (h : s.Expects c f t0 start last (e :: es)) (hlast : last ≤ e.1) : s.poll = s.ignore := by
  subst hcfg
  have hhalf := hlegal.half_add_half
  cases h with
  | start request => exact request.poll_before_deadline (hlast.trans_lt hreply.near) (hlast.trans hreply.timeout)
  | startMid hs hclock => exact hclock.poll_startBit hlegal (by simp [hs]) hs hlast
  | @boundary k _ hreceived _ _ hclock | @mid k _ hreceived _ hclock =>
    have hs := hreceived.status
    have hslot := Nat.add_one_mul k s.cfg.tBit
    exact hclock.poll_receiving hlegal (by simp [hs]) hs (by omega)

/-- The next edge is accepted, and the block expects the ones after it. -/
theorem onEdge (h : s.Expects c f t0 start e.1 (e :: es)) (hsent : s.sent = false) :
    (s.onEdge e.2).Expects c f t0 start e.1 es := by
  subst hcfg
  have hhalf := hlegal.half_add_half
  cases h with
  | start request =>
    obtain ⟨hs, hclock, hsince⟩ := request.waiting_of_not_sent hreply.near hsent hreply.sent
    have htimeout := hreply.timeout
    rw [onEdge_start hs (by omega)]
    exact .startMid rfl (hclock.restart (by simp) rfl _)
  | startMid hs hclock =>
    rw [onEdge_startMid hs (hclock.inHalfWindow hlegal (by simp [hs]) rfl)]
    have hclock' := hclock.restart (r := s.regs.beginData s.now) nofun rfl Out.default
    exact afterSlot (Nat.zero_le 32) (.beginData f _ _) rfl rfl (by simpa using hclock')
  | @boundary k hk hreceived hboundary hlevel hclock =>
    have hs := hreceived.status
    have hslot := Nat.add_one_mul k s.cfg.tBit
    rw [onEdge_boundary hs hlevel hboundary (hclock.inHalfWindow hlegal (by simp [hs]) (by omega))]
    have hopposite : secondHalf (wireBit f (k + 1)) ≠ firstHalf (wireBit f (k + 1)) := fun hsame =>
      firstHalf_eq_secondHalf.1 hsame.symm rfl
    have hsending : s.regs.status ≠ .requestSending := by simp [hs]
    exact .mid hk ⟨hs, hreceived.bitIndex, hreceived.bits⟩ hopposite
      (hclock.setRegs (r := s.regs.acceptBoundary _) hsending hsending rfl _)
  | @mid k hk hreceived hlevel hclock =>
    have hs := hreceived.status
    have hslot := Nat.add_one_mul k s.cfg.tBit
    obtain ⟨hpast, hwindow⟩ := hclock.inBitWindow hlegal (by simp [hs]) (by omega)
    rcases Nat.lt_or_eq_of_le hk with hk | rfl
    · rw [onEdge_bit hs hlevel hpast hwindow (hreceived.bitIndex_lt hk)]
      exact afterSlot hk (hreceived.acceptBit hk _) rfl rfl (hclock.restart (by simp [hs]) rfl _)
    · have hidle : secondHalf (wireBit f (32 + 1)) = .idle := congrArg secondHalf (wireBit_stop f)
      rw [hidle] at hlevel ⊢
      rw [onEdge_stop hs hlevel hpast hwindow hreceived.bitIndex, slotsFrom_end]
      exact .complete rfl hreceived.rxReg_eq

omit hreply in
/-- After the last edge every poll reports the frame (41_transceiver_ops.md R168). -/
theorem pollLoop_complete (h : s.Expects c f t0 start last []) (t : Nat) (rest : List Tick) :
    pollLoop (.poll t :: rest) s = some f := by
  cases h with
  | complete hs hrxReg => rw [pollLoop_poll_report (hcfg ▸ hlegal) (atEvent_poll_of_ready hs t), hrxReg, if_pos rfl]

/-- The loop passes a poll not later than the next edge. -/
theorem pollLoop_passes_poll (h : s.Expects c f t0 start last (e :: es)) {t : Nat} (hlast : last ≤ t) (ht : t ≤ e.1)
    (rest : List Tick) :
    ∃ u, u.cfg = c ∧ u.Expects c f t0 start t (e :: es) ∧ pollLoop (.poll t :: rest) s = pollLoop rest u := by
  have hcfg' : (s.atEvent t).cfg = c := (s.atEvent_cfg t).trans hcfg
  have hevent := h.atEvent hcfg hlegal hreply hlast ht
  have hpoll := hevent.poll_eq_ignore hcfg' hlegal hreply ht
  refine ⟨(s.atEvent t).ignore, hcfg', hevent.answer _, ?_⟩
  rw [pollLoop_poll_quiet (hcfg ▸ hlegal) (by rw [hpoll]; rfl), hpoll]

/-- The loop passes the next edge. -/
theorem pollLoop_passes_edge (h : s.Expects c f t0 start last (e :: es)) (hlast : last ≤ e.1) (rest : List Tick) :
    ∃ u, u.cfg = c ∧ u.Expects c f t0 start e.1 es ∧
      pollLoop (.edge e.1 (pinOfLevel c e.2) :: rest) s = pollLoop rest u := by
  have hcfg' : (s.atEvent e.1).cfg = c := (s.atEvent_cfg e.1).trans hcfg
  have hevent := h.atEvent hcfg hlegal hreply hlast le_rfl
  refine ⟨_, ((s.accept e.1 []).sameSetting_onEdge e.2).cfg.trans hcfg,
    hevent.onEdge hcfg' hlegal hreply (s.atEvent_sent e.1), ?_⟩
  rw [← hcfg]
  exact pollLoop_edge (hcfg ▸ hlegal) e.1 e.2 rest

end State.Expects

/-! ## The loop over the reply -/

/-- Of ticks in the order of time the first is not later than the first edge. -/
theorem le_time_of_filter_isEdge {c : Params} {ticks : List Tick} {e : Nat × Level} {es : List (Nat × Level)} {t : Nat}
    (hedges : ticks.filter Tick.isEdge = lineTicks c (e :: es)) (horder : (t :: ticks.map Tick.time).Pairwise (· ≤ ·)) :
    t ≤ e.1 := by
  have hmem : .edge e.1 (pinOfLevel c e.2) ∈ ticks.filter Tick.isEdge := by
    rw [hedges]
    exact List.mem_cons_self
  exact (List.pairwise_cons.1 horder).1 _ (List.mem_map_of_mem (List.mem_filter.1 hmem).1)

/-- The loop returns the reply at the first poll after its last edge. -/
theorem pollLoop_reply {c : Params} (hlegal : c.Legal) {f : Word32} {t0 start final : Nat} (hreply : c.InTime t0 start)
    (more : List Tick) {ticks : List Tick} {s : State} {last : Nat} {es : List (Nat × Level)} (hcfg : s.cfg = c)
    (h : s.Expects c f t0 start last es) (hedges : ticks.filter Tick.isEdge = lineTicks c es)
    (horder : (last :: ticks.map Tick.time).Pairwise (· ≤ ·)) :
    pollLoop (ticks ++ .poll final :: more) s = some f := by
  induction ticks generalizing s last es with
  | nil =>
    obtain rfl : es = [] := List.map_eq_nil_iff.1 hedges.symm
    exact h.pollLoop_complete hcfg hlegal final more
  | cons tick ticks ih =>
    obtain ⟨hfirst, horder⟩ := List.pairwise_cons.1 horder
    have hlast := hfirst _ List.mem_cons_self
    cases tick with
    | poll t =>
      cases es with
      | nil => exact h.pollLoop_complete hcfg hlegal t _
      | cons e es =>
        have ht : t ≤ e.1 := le_time_of_filter_isEdge (ticks := ticks) hedges horder
        obtain ⟨u, hucfg, hu, heq⟩ := h.pollLoop_passes_poll hcfg hlegal hreply hlast ht (ticks ++ .poll final :: more)
        exact heq.trans (ih hucfg hu hedges horder)
    | edge t pin =>
      cases es with
      | nil => cases hedges
      | cons e es =>
        obtain ⟨hedge, hrest⟩ := List.cons.inj hedges
        cases hedge
        obtain ⟨u, hucfg, hu, heq⟩ := h.pollLoop_passes_edge hcfg hlegal hreply hlast (ticks ++ .poll final :: more)
        exact heq.trans (ih hucfg hu hrest horder)

/-- Settles O56: from the accepted request on, a poll not later than the next edge changes nothing, each edge of the reply
is accepted, and the poll after the last one reports the frame. -/
theorem sendRequestReturnsReply : Obligations.SendRequestReturnsReply := by
  intro s f g t0 wait last ticks more hlegal p hready hmaster hwait hfits hedges horder
  obtain ⟨v, hstep, hok, hcfg, hout⟩ := step_sendRequest hlegal hready hmaster f
  have hreply : s.cfg.InTime t0 (t0 + 34 * s.cfg.tBit + wait) := ⟨by omega, by omega, by omega⟩
  rw [sendRequestSync_of_accepted _ hstep hok]
  rw [frameEdges_eq_cons] at hedges
  exact pollLoop_reply hlegal hreply more hcfg (.start hout) hedges horder

end Sys2Proof.Machine

/-! PROOFS. The frame codec (40_codec.md): parity, the fields of a frame, the builds and the validators. -/

namespace Sys2Proof.Machine

/-! ## What a codec command leaves (R131) -/

/-- A codec command that answers `o` changes no register beyond the pre-step. -/
theorem State.codec_frame (s : State) (o : Out) :
    (s.codec o).regs = s.preStep.regs ∧ s.SameSetting (s.codec o) ∧ (s.codec o).undisciplined = s.undisciplined :=
  ⟨s.codec_regs o, s.sameSetting_answer o, by simp⟩

/-- A codec command answers the same outputs under the same parameters. -/
theorem exec_codec_out {i : Instr} {s t s' t' : State} (hi : Codec i) (hcfg : s'.cfg = s.cfg)
    (h : exec i s = .next t) (h' : exec i s' = .next t') : t.out = t'.out := by
  cases i <;> cases h <;> cases h'
  case buildRequest | buildResponse => split <;> rfl
  case temperatureToData => simp [hcfg]
  case parity | getMessageType | getDataId | isValidRequest | isValidResponse | getUint | getFloat => rfl
  all_goals exact hi.elim

/-- Settles O26: the outputs are a function of the operands and the parameters, and a command error is the only other
case of the registers. -/
theorem codecIsPure : Obligations.CodecIsPure := by
  intro i s t s' t' hi hcfg h h'
  refine ⟨exec_codec_out hi hcfg h h', ?_⟩
  rcases exec_codec_or_query (.inl hi) h with ⟨-, hregs⟩ | ⟨-, hregs⟩
  · exact .inl hregs
  · exact .inr hregs

/-! ## Parity (R110 to R112, R125) -/

/-- Settles O15. -/
theorem parityGenerator : Obligations.ParityGenerator := fun c htop => ⟨rfl, oddParity_withParity c htop⟩

/-- Settles O16. -/
theorem parityCommand : Obligations.ParityCommand := fun frame s =>
  ⟨_, exec_parity s frame, (odd_card_iff frame).symm, rfl, rfl, rfl, rfl, s.codec_frame _⟩

/-- An error pattern on a frame of valid parity is seen exactly when its own parity is odd. -/
theorem oddParity_xor_of_even {f : Word32} (hf : oddParity f = false) (e : Word32) :
    oddParity (f ^^^ e) = oddParity e := by
  rw [oddParity_xor, hf, Bool.false_xor]

/-- Settles O24: a single flipped bit is an error pattern of odd parity. -/
theorem parityDetectsOddErrors : Obligations.ParityDetectsOddErrors := by
  refine ⟨fun f i hf => ?_, fun f e hf => ?_⟩
  · rw [oddParity_xor_of_even hf, oddParity_single]
  · rw [oddParity_xor_of_even hf, odd_card_iff]

/-! ## The fields of a frame (R115, R116, R119) -/

/-- A field of a frame as a zero-extended result. -/
theorem extract_zeroExtend_toNat (f : Word32) (lo : Nat) {n : Nat} (hn : n ≤ 32) :
    ((f.extractLsb' lo n).zeroExtend 32).toNat = f.toNat / 2 ^ lo % 2 ^ n := by
  rw [BitVec.zeroExtend_eq_setWidth, BitVec.toNat_setWidth_of_le hn, BitVec.extractLsb'_toNat,
    Nat.shiftRight_eq_div_pow]

/-- Settles O19. -/
theorem fieldCommands : Obligations.FieldCommands := by
  intro frame s
  refine ⟨⟨_, exec_getMessageType s frame, ?_, rfl, s.codec_frame _⟩,
    ⟨_, exec_getDataId s frame, ?_, rfl, s.codec_frame _⟩, ⟨_, exec_getUint s frame, ?_, rfl, s.codec_frame _⟩⟩
  · exact extract_zeroExtend_toNat frame 28 (by decide)
  · exact extract_zeroExtend_toNat frame 16 (by decide)
  · exact (extract_zeroExtend_toNat frame 0 (by decide)).trans (by rw [pow_zero, Nat.div_one])

/-! ## The directions of a type (30_encoding.md R82) -/

theorem isMasterType_iff (type : BitVec 3) : isMasterType type = true ↔ type = 0#3 ∨ type = 1#3 ∨ type = 2#3 := by
  simp [isMasterType, or_assoc]

theorem isSlaveType_iff (type : BitVec 3) :
    isSlaveType type = true ↔ type = 4#3 ∨ type = 5#3 ∨ type = 6#3 ∨ type = 7#3 := by
  simp [isSlaveType, or_assoc]

theorem isMasterType_iff_lt (type : BitVec 3) : isMasterType type = true ↔ type.toNat < 3 := by
  revert type
  decide

theorem isSlaveType_iff_le (type : BitVec 3) : isSlaveType type = true ↔ 4 ≤ type.toNat := by
  revert type
  decide

/-- No type is of both directions. -/
theorem isSlaveType_of_isMasterType {type : BitVec 3} (h : isMasterType type = true) : isSlaveType type = false := by
  rw [isMasterType_iff_lt] at h
  rw [Bool.eq_false_iff, ne_eq, isSlaveType_iff_le]
  omega

theorem isMasterType_of_isSlaveType {type : BitVec 3} (h : isSlaveType type = true) : isMasterType type = false :=
  Bool.eq_false_iff.2 fun hmaster => by simp [isSlaveType_of_isMasterType hmaster] at h

/-! ## The validators (R117, R118) -/

theorem validRequest_iff (f : Word32) :
    validRequest f = true ↔ oddParity f = false ∧ isMasterType (messageType f) = true := by
  simp [validRequest]

theorem validResponse_iff (f : Word32) :
    validResponse f = true ↔ oddParity f = false ∧ isSlaveType (messageType f) = true := by
  simp [validResponse]

theorem messageType_toNat (f : Word32) : (messageType f).toNat = f.toNat / 2 ^ 28 % 2 ^ 3 := by
  rw [messageType, BitVec.extractLsb'_toNat, Nat.shiftRight_eq_div_pow]

/-- Settles O20. -/
theorem validatorCommands : Obligations.ValidatorCommands := by
  intro frame s
  refine ⟨⟨_, exec_isValidRequest s frame, ?_, rfl, rfl, rfl, rfl, s.codec_frame _⟩,
    ⟨_, exec_isValidResponse s frame, ?_, rfl, rfl, rfl, rfl, s.codec_frame _⟩⟩
  · rw [even_card_iff, ← messageType_toNat, ← isMasterType_iff_lt]
    exact validRequest_iff frame
  · rw [even_card_iff, ← messageType_toNat, ← isSlaveType_iff_le]
    exact validResponse_iff frame

/-! ## The builds (R113, R114, R124) -/

section
variable {type : BitVec 3} (id : BitVec 8) (value : BitVec 16) (s : State)

theorem exec_buildRequest_of_isMasterType (h : isMasterType type = true) :
    exec (.buildRequest type id value) s = .next (s.codec (Out.value (withParity (content type id value)))) := by
  rw [exec_buildRequest, if_pos h]

theorem exec_buildResponse_of_isSlaveType (h : isSlaveType type = true) :
    exec (.buildResponse type id value) s = .next (s.codec (Out.value (withParity (content type id value)))) := by
  rw [exec_buildResponse, if_pos h]

theorem exec_buildRequest_of_not_isMasterType (h : isMasterType type = false) :
    exec (.buildRequest type id value) s = .next s.cmdError := by
  simp [exec_buildRequest, h]

theorem exec_buildResponse_of_not_isSlaveType (h : isSlaveType type = false) :
    exec (.buildResponse type id value) s = .next s.cmdError := by
  simp [exec_buildResponse, h]

end

section
variable (type : BitVec 3) (id : BitVec 8) (value : BitVec 16)

theorem oddParity_built : oddParity (withParity (content type id value)) = false :=
  oddParity_withParity _ (content_topBit type id value)

/-- Of a built frame the type alone decides the validity. -/
theorem validRequest_built : validRequest (withParity (content type id value)) = isMasterType type := by
  rw [validRequest, oddParity_built, messageType_withParity, Bool.not_false, Bool.true_and]

theorem validResponse_built : validResponse (withParity (content type id value)) = isSlaveType type := by
  rw [validResponse, oddParity_built, messageType_withParity, Bool.not_false, Bool.true_and]

end

/-- Settles O17: both builds answer the same frame of their operands. -/
theorem buildCommands : Obligations.BuildCommands := by
  intro type id value s builds
  have hbuilt : ∀ i, exec i s = .next (s.codec (Out.value (withParity (content type id value)))) → builds i :=
    fun i hexec => ⟨_, hexec, messageType_withParity type id value, spare_withParity type id value,
      dataId_withParity type id value, dataValue_withParity type id value, oddParity_built type id value, rfl,
      s.codec_frame _⟩
  exact ⟨fun h => hbuilt _ (exec_buildRequest_of_isMasterType id value s ((isMasterType_iff type).2 h)),
    fun h => hbuilt _ (exec_buildResponse_of_isSlaveType id value s ((isSlaveType_iff type).2 h))⟩

/-- Settles O18. -/
theorem buildRefusesWrongType : Obligations.BuildRefusesWrongType := by
  intro type id value s
  refine ⟨fun h => ?_, fun h => ?_⟩
  · have hother : isMasterType type = false := by rcases h with rfl | rfl | rfl | rfl | rfl <;> rfl
    exact ⟨_, exec_buildRequest_of_not_isMasterType id value s hother, rfl, rfl, s.sameSetting_cmdError, rfl⟩
  · have hother : isSlaveType type = false := by rcases h with rfl | rfl | rfl | rfl <;> rfl
    exact ⟨_, exec_buildResponse_of_not_isSlaveType id value s hother, rfl, rfl, s.sameSetting_cmdError, rfl⟩

/-- A boolean command answers its result in `ok` and in `res` (00_scope.md R15). -/
theorem yields_bool {i : Instr} {s : State} {a b : Bool} (hexec : exec i s = .next (s.codec (Out.bool a)))
    (h : a = b) : Yields i s fun t => t.out.ok = b ∧ t.out.res = if b then 1#32 else 0#32 := by
  subst h
  exact ⟨_, hexec, rfl, rfl⟩

/-- The four decoders on a built frame. -/
theorem built_readsBack (type : BitVec 3) (id : BitVec 8) (value : BitVec 16) (s : State) :
    let f := withParity (content type id value)
    Yields (.parity f) s (fun t => t.out.ok = false) ∧
    Yields (.getMessageType f) s (fun t => t.out.res = type.zeroExtend 32) ∧
    Yields (.getDataId f) s (fun t => t.out.res = id.zeroExtend 32) ∧
    Yields (.getUint f) s (fun t => t.out.res = value.zeroExtend 32) := by
  refine ⟨⟨_, exec_parity s _, oddParity_built type id value⟩, ⟨_, exec_getMessageType s _, ?_⟩,
    ⟨_, exec_getDataId s _, ?_⟩, ⟨_, exec_getUint s _, ?_⟩⟩
  · exact congrArg (BitVec.zeroExtend 32) (messageType_withParity type id value)
  · exact congrArg (BitVec.zeroExtend 32) (dataId_withParity type id value)
  · exact congrArg (BitVec.zeroExtend 32) (dataValue_withParity type id value)

/-- Settles O23: the fields read back whatever the direction, and the type decides which validator accepts. -/
theorem builtFramesDecode : Obligations.BuiltFramesDecode := by
  intro type id value s
  have hreads := built_readsBack type id value s
  refine ⟨fun h => ?_, fun h => ?_⟩
  · have hmaster := (isMasterType_iff type).2 h
    exact ⟨_, exec_buildRequest_of_isMasterType id value s hmaster, hreads,
      yields_bool (exec_isValidRequest s _) ((validRequest_built type id value).trans hmaster),
      yields_bool (exec_isValidResponse s _)
        ((validResponse_built type id value).trans (isSlaveType_of_isMasterType hmaster))⟩
  · have hslave := (isSlaveType_iff type).2 h
    exact ⟨_, exec_buildResponse_of_isSlaveType id value s hslave, hreads,
      yields_bool (exec_isValidResponse s _) ((validResponse_built type id value).trans hslave),
      yields_bool (exec_isValidRequest s _)
        ((validRequest_built type id value).trans (isMasterType_of_isSlaveType hslave))⟩

end Sys2Proof.Machine

/-! PROOFS. The f8.8 conversions (40_codec.md R120 to R123, R126). -/

namespace Sys2Proof.Machine

/-! ## GET_FLOAT (R120) -/

/-- An f8.8 value in Q16.16 fits 32 bits. -/
theorem f88ToQ16_toInt (v : BitVec 16) : (f88ToQ16 v).toInt = v.toInt * 256 := by
  have hlow := BitVec.le_toInt v
  have hhigh := BitVec.toInt_lt (x := v)
  rw [f88ToQ16, BitVec.toInt_ofInt]
  exact Int.bmod_eq_of_le (by omega) (by omega)

/-- Settles O21. -/
theorem getFloatIsExact : Obligations.GetFloatIsExact := fun frame s =>
  ⟨_, exec_getFloat s frame, f88ToQ16_toInt (dataValue frame), rfl, s.codec_frame _⟩

/-! ## The rounding of TEMPERATURE_TO_DATA (R122) -/

/-- `r` is `q / 256` rounded as the mode says. -/
def RoundsTo (m : F88Round) (q r : Int) : Prop :=
  match m with
  | .nearestAway => 2 * |256 * r - q| ≤ 256 ∧ (2 * |256 * r - q| = 256 → |q| < |256 * r|)
  | .nearestEven => 2 * |256 * r - q| ≤ 256 ∧ (2 * |256 * r - q| = 256 → Even r)
  | .truncate => |256 * r - q| < 256 ∧ |256 * r| ≤ |q|

/-- `roundF88` rounds as its mode says: TRUNCATE and NEAREST_AWAY by the sign of `q`, NEAREST_EVEN by the remainder's
side of one half and, at one half, by the parity below. -/
theorem roundsTo_roundF88 (m : F88Round) (q : Int) : RoundsTo m q (roundF88 m q) := by
  cases m <;> simp only [RoundsTo, roundF88, withSign, Int.abs_eq_natAbs, Int.even_iff]
  case nearestAway | truncate => split <;> omega
  case nearestEven => split_ifs <;> omega

/-- Under every mode the rounding is off by less than one unit. -/
theorem RoundsTo.abs_lt {m : F88Round} {q r : Int} (h : RoundsTo m q r) : |256 * r - q| < 256 := by
  cases m
  case nearestAway | nearestEven | truncate => linarith [h.1]

/-! ## TEMPERATURE_TO_DATA (R121 to R123) -/

/-- The 16-bit result is the rounded value, clamped or not, modulo `2 ^ 16`. -/
theorem q16ToF88_toNat (c : Params) (q : Word32) :
    (((q16ToF88 c q).zeroExtend 32).toNat : Int) = clampF88 c.f88Ovf (roundF88 c.f88Round q.toInt) % 2 ^ 16 := by
  rw [BitVec.zeroExtend_eq_setWidth, BitVec.toNat_setWidth_of_le (by decide), q16ToF88, BitVec.toNat_ofInt]
  exact Int.toNat_of_nonneg (Int.emod_nonneg _ (by decide))

/-- Settles O22. -/
theorem temperatureToDataRounds : Obligations.TemperatureToDataRounds := fun q s =>
  ⟨_, exec_temperatureToData s q, ⟨_, roundsTo_roundF88 s.cfg.f88Round q.toInt, q16ToF88_toNat s.cfg q⟩, rfl,
    s.codec_frame _⟩

/-- A value that fits 16 bits is not clamped. -/
theorem clampF88_of_fits (m : F88Ovf) {r : Int} (hlow : -32768 ≤ r) (hhigh : r ≤ 32767) : clampF88 m r = r := by
  cases m
  case wrap => rfl
  case saturate => rw [clampF88, max_eq_right hlow, min_eq_right hhigh]

/-- In the range of f8.8 the result is the rounded value, without overflow. -/
theorem q16ToF88_toInt {c : Params} {q : Word32} (hlow : -128 * 65536 ≤ q.toInt)
    (hhigh : q.toInt ≤ 128 * 65536 - 256) :
    (q16ToF88 c q).toInt = roundF88 c.f88Round q.toInt := by
  obtain ⟨hbelow, habove⟩ := abs_lt.1 (roundsTo_roundF88 c.f88Round q.toInt).abs_lt
  rw [q16ToF88, clampF88_of_fits _ (by omega) (by omega), BitVec.toInt_ofInt]
  exact Int.bmod_eq_of_le (by omega) (by omega)

/-! ## The round trips (R126) -/

/-- An f8.8 value survives the way through Q16.16: no other integer is less than one unit away. -/
theorem q16ToF88_f88ToQ16 (c : Params) (v : BitVec 16) : q16ToF88 c (f88ToQ16 v) = v := by
  have hlow := BitVec.le_toInt v
  have hhigh := BitVec.toInt_lt (x := v)
  have hq := f88ToQ16_toInt v
  obtain ⟨hbelow, habove⟩ := abs_lt.1 (roundsTo_roundF88 c.f88Round (f88ToQ16 v).toInt).abs_lt
  apply BitVec.eq_of_toInt_eq
  rw [q16ToF88_toInt (by omega) (by omega)]
  omega

/-- The data-value of a zero-extended 16-bit result. -/
theorem dataValue_zeroExtend (v : BitVec 16) : dataValue (v.zeroExtend 32) = v := by
  ext i hi
  simp [dataValue, show i < 32 by omega, BitVec.getLsbD_eq_getElem hi]

/-- Settles O25: the first trip is exact; the second is off by the rounding of TEMPERATURE_TO_DATA alone. -/
theorem fixedPointRoundTrip : Obligations.FixedPointRoundTrip := by
  refine fun s => ⟨fun frame t u ht hu => ?_, fun q t u hlow hhigh ht hu => ?_⟩
  · cases ht
    cases hu
    exact congrArg (BitVec.zeroExtend 32) (q16ToF88_f88ToQ16 s.cfg (dataValue frame))
  · cases ht
    cases hu
    have hback : (f88ToQ16 (dataValue ((q16ToF88 s.cfg q).zeroExtend 32))).toInt =
        256 * roundF88 s.cfg.f88Round q.toInt := by
      rw [dataValue_zeroExtend, f88ToQ16_toInt, q16ToF88_toInt hlow hhigh, mul_comm]
    have hround := roundsTo_roundF88 s.cfg.f88Round q.toInt
    simp only [State.codec_out, Out.value, hback]
    cases hm : s.cfg.f88Round <;> rw [hm] at hround
    case nearestAway | nearestEven | truncate => linarith [hround.1]

end Sys2Proof.Machine

/-! PROOFS. The transmit-completion pre-step, and the session, query and send commands on the state it leaves
(41_transceiver_ops.md R150 to R158). -/

namespace Sys2Proof.Machine

/-! ## The pre-step (R150) -/

/-- Settles O27: case by case from what the pre-step can do. -/
theorem preStepEffect : Obligations.PreStepEffect := by
  intro s finished tEnd
  have hsent : s.sent = true ↔ finished := by simp [State.sent, finished]
  refine ⟨s.sinceStart_of_disciplined, fun hfinished hkind => ?_, fun hfinished hkind => ?_, fun hunfinished => ?_⟩
  · rw [s.preStep_of_sent (hsent.2 hfinished), State.afterSending, hkind]
    rfl
  · rw [s.preStep_of_sent (hsent.2 hfinished), State.afterSending, hkind]
    rfl
  · exact s.preStep_of_not_sent (Bool.eq_false_iff.2 fun h => hunfinished (hsent.1 h))

/-- A codec command runs the pre-step itself. -/
@[simp] theorem State.codec_preStep (s : State) (o : Out) : s.preStep.codec o = s.codec o := by
  rw [codec, preStep_preStep, codec]

/-- A command that is no command error answers the same before and after the pre-step. -/
theorem exec_preStep {i : Instr} {s t : State} (hexec : exec i s = .next t) (herr : t.out.cmdErr = false) :
    exec i s.preStep = .next t := by
  cases i <;> cases hexec
  case buildRequest type id value =>
    cases htype : isMasterType type
    · simp [htype, Out.cmdError] at herr
    · simp [exec_buildRequest, htype]
  case buildResponse type id value =>
    cases htype : isSlaveType type
    · simp [htype, Out.cmdError] at herr
    · simp [exec_buildResponse, htype]
  case beginSession => rw [exec_beginSession, s.preStep_preStep]
  case endSession => rw [exec_endSession, s.preStep_preStep]
  case isReady => rw [exec_isReady, s.preStep_preStep]
  case sendRequestAsync => rw [exec_sendRequestAsync, s.preStep_preStep]
  case sendResponse => rw [exec_sendResponse, s.preStep_preStep]
  case process => rw [exec_process, s.preStep_preStep]
  case edge => rw [exec_edge, s.preStep_preStep, s.preStep_cfg]
  case getLastResponse => rw [exec_getLastResponse, s.preStep_preStep]
  case getLastResponseStatus => rw [exec_getLastResponseStatus, s.preStep_preStep]
  case getStatus => rw [exec_getStatus, s.preStep_preStep]
  case temperatureToData => rw [exec_temperatureToData, s.codec_preStep, s.preStep_cfg]
  all_goals exact congrArg Host.Outcome.next (s.codec_preStep _)

/-- Once the 34 bit periods are over the pre-step leaves the same registers at any time (R150). -/
theorem State.preStep_regs_at {s : State} (hkept : s.undisciplined = false) {a : Nat}
    (hover : 34 * s.cfg.tBit ≤ elapsed s.cfg.tsW a s.regs.txStart) :
    ({ s with now := a } : State).preStep.regs =
      if s.regs.status = .requestSending then s.regs.enter s.afterSending s.txEnd else s.regs := by
  have hsince : ({ s with now := a } : State).sinceStart = elapsed s.cfg.tsW a s.regs.txStart :=
    sinceStart_of_disciplined _ hkept
  by_cases hs : s.regs.status = .requestSending
  · rw [preStep_of_sent _ (by simp [sent, hs, hsince, hover]), if_pos hs]
    rfl
  · rw [preStep_of_status { s with now := a } hs, if_neg hs]

/-- Settles O28: the pre-step runs once, and what it writes is the end of the transmission. -/
theorem everyCommandRunsPreStep : Obligations.EveryCommandRunsPreStep :=
  ⟨fun _ _ _ => exec_preStep, fun _ _ _ hkept ha hb =>
    (State.preStep_regs_at hkept ha).trans (State.preStep_regs_at hkept hb).symm⟩

/-! ## The session (R151, R152) -/

/-- Settles O29: by the test of BEGIN on the state after the pre-step. -/
theorem beginCommand : Obligations.BeginCommand := by
  intro b s
  refine ⟨_, exec_beginSession s b, s.sameSetting_openSession _, fun hclosed => ?_, fun hopen => ?_⟩
  · rw [State.openSession, if_pos hclosed, ← s.preStep_now]
    exact ⟨rfl, State.outputPin_of_not_sending nofun, rfl⟩
  · rw [State.openSession, if_neg hopen]
    exact ⟨rfl, rfl⟩

/-- Settles O30: END writes `status` alone, and NOT_INITIALIZED sends nothing. -/
theorem endCommand : Obligations.EndCommand := fun s =>
  ⟨_, exec_endSession s, exec_sameSetting (exec_endSession s), rfl, rfl, State.outputPin_of_not_sending nofun⟩

/-! ## The queries (R153 to R156) -/

/-- Settles O31: each query's answer is read from the state after the pre-step, code by code. -/
theorem queryCommands : Obligations.QueryCommands := by
  intro s answers statusCode outcomeCode
  have query {i : Instr} {o o' : Out} (hexec : exec i s = .next (s.preStep.answer o)) (ho : o = o') : answers i o' :=
    ⟨_, hexec, ho, rfl, s.sameSetting_answer o, s.preStep_undisciplined⟩
  refine ⟨fun hready => query (exec_isReady s) ?_, fun hbusy => query (exec_isReady s) ?_,
    query (exec_getStatus s) ?_, query (exec_getLastResponse s) ?_, query (exec_getLastResponseStatus s) ?_⟩
  · simp [hready, Out.bool, Out.default]
  · simp [hbusy, Out.bool, Out.default]
  · simp only [statusCode]
    cases s.preStep.regs.status <;> rfl
  · rw [s.preStep_lastResponse]
    rfl
  · simp only [outcomeCode, s.preStep_lastStatus]
    cases s.regs.lastStatus <;> rfl

/-! ## The send commands (R157, R158) -/

/-- Settles O33: by the test of SEND_REQUEST_ASYNC on the state after the pre-step. -/
theorem sendRequestAsyncCommand : Obligations.SendRequestAsyncCommand := by
  intro frame s
  rw [← s.preStep_role]
  refine ⟨_, exec_sendRequestAsync s frame, s.sameSetting_sendRequest frame, fun haccepted => ?_, fun hrejected => ?_⟩
  · rw [State.sendRequest, if_pos haccepted, ← s.preStep_now]
    exact ⟨rfl, rfl⟩
  · rw [State.sendRequest, if_neg hrejected]
    exact ⟨rfl, rfl⟩

/-- Settles O34: by the test of SEND_RESPONSE on the state after the pre-step. -/
theorem sendResponseCommand : Obligations.SendResponseCommand := by
  intro frame s
  rw [← s.preStep_role]
  refine ⟨_, exec_sendResponse s frame, s.sameSetting_sendResponse frame, fun haccepted => ?_, fun hrejected => ?_⟩
  · rw [State.sendResponse, if_pos haccepted, ← s.preStep_now]
    exact ⟨rfl, rfl⟩
  · rw [State.sendResponse, if_neg hrejected]
    exact ⟨rfl, rfl⟩

end Sys2Proof.Machine

/-! PROOFS. The bits of a frame on the wire and the output line (41_transceiver_ops.md R159 to R162). -/

namespace Sys2Proof.Machine

/-- Settles O35: the start bit, the data bits and the stop bit, by their places. -/
theorem wireSequence : Obligations.WireSequence := by
  refine fun f => ⟨wireBits_length f, rfl, fun j hj => ?_, ?_⟩
  · rw [Nat.add_comm, wireBits_getElem? f (by omega), wireBit_data f hj]
  · rw [wireBits_getElem? f (by decide), wireBit_stop]

theorem firstHalf_ne_secondHalf (b : Bool) : firstHalf b ≠ secondHalf b := fun h => firstHalf_eq_secondHalf.1 h rfl

theorem secondHalf_eq_idle_iff (b : Bool) : secondHalf b = .idle ↔ b = true := by
  cases b <;> decide

/-- Settles O36: a slot's halves differ, and the level before a boundary is the level after it unless the bits agree. -/
theorem manchesterTransitions : Obligations.ManchesterTransitions := by
  intro f k hk
  rw [halfLevel_even, halfLevel_odd, wireBits_getElem? f hk, Option.some_inj]
  refine ⟨firstHalf_ne_secondHalf _, secondHalf_eq_idle_iff _, fun hnext => ?_⟩
  rw [show 2 * k + 2 = 2 * (k + 1) by ring, halfLevel_even, wireBits_getElem? f (by omega), Option.some_inj, ne_comm,
    Ne, firstHalf_eq_secondHalf, not_not, eq_comm]

/-- The line `d` microseconds after the start of a transmission (R161). -/
theorem State.txLevel_after {s : State} (hkept : s.undisciplined = false) (hs : s.regs.status = .requestSending)
    {d : Nat} (hd : d < 2 ^ s.cfg.tsW) : s.txLevel ((s.regs.txStart + d) % 2 ^ s.cfg.tsW) =
      if d < 34 * s.cfg.tBit then halfLevel s.regs.txFrame (d / s.cfg.half) else .idle := by
  have hsince : s.timeSince ((s.regs.txStart + d) % 2 ^ s.cfg.tsW) s.regs.txStart = d :=
    (s.timeSince_of_disciplined hkept _ _).trans (elapsed_addTime _ hd)
  simp [txLevel, hs, hsince]

/-- Settles O37: the `h`-th half-bit interval is read from the time since `txStart`, which fits a timestamp. -/
theorem outputLine : Obligations.OutputLine := by
  refine fun s hlegal hkept => ⟨fun hs => ⟨fun h j hh hj => ?_, fun d hover hd => ?_⟩, State.outputPin_of_not_sending⟩
  · change j < s.cfg.half at hj
    have hbit := hlegal.half_add_half
    have hslot : h * s.cfg.half ≤ 67 * s.cfg.half := Nat.mul_le_mul_right _ (Nat.le_of_lt_succ hh)
    have hin : h * s.cfg.half + j < 34 * s.cfg.tBit := by omega
    have hfits : h * s.cfg.half + j < 2 ^ s.cfg.tsW :=
      (hin.trans hlegal.frame_fits).trans_le (two_pow_pred_le s.cfg.tsW)
    have hindex : (h * s.cfg.half + j) / s.cfg.half = h := Nat.div_eq_of_lt_le (by omega) (by rw [Nat.succ_mul]; omega)
    rw [Nat.add_assoc, ← Params.half, State.txLevel_after hkept hs hfits, if_pos hin, hindex]
  · rw [State.outputPin, State.txLevel_after hkept hs hd, if_neg hover.not_gt]
    rfl

end Sys2Proof.Machine

/-! PROOFS. PROCESS (41_transceiver_ops.md R163 to R170), and that it alone reports (R173). -/

namespace Sys2Proof.Machine

namespace State

variable (s : State)

/-- A missing edge past the deadline writes RESPONSE_INVALID and reports nothing (R164). -/
theorem pollStartBit_effect : s.pollStartBit.out = Out.default ∧
    s.pollStartBit.regs = if s.cfg.halfMax < s.sinceRef then s.regs.setStatus .responseInvalid else s.regs := by
  unfold pollStartBit
  split <;> exact ⟨rfl, rfl⟩

/-- The same between the bits of a frame (R165). -/
theorem pollReceiving_effect : s.pollReceiving.out = Out.default ∧
    s.pollReceiving.regs = if s.cfg.bitMax < s.sinceRef then s.regs.setStatus .responseInvalid else s.regs := by
  unfold pollReceiving
  split <;> exact ⟨rfl, rfl⟩

/-- DELAY ends in READY (R169). -/
theorem pollDelay_effect : s.pollDelay.out = Out.default ∧
    s.pollDelay.regs = if s.cfg.delayGap < s.sinceReport then s.regs.enter .ready s.now else s.regs := by
  unfold pollDelay
  split <;> exact ⟨rfl, rfl⟩

variable {s}

theorem poll_of_startBit (h : s.regs.status = .responseStartBit) : s.poll = s.pollStartBit := by simp [poll, h]
theorem poll_of_receiving (h : s.regs.status = .responseReceiving) : s.poll = s.pollReceiving := by simp [poll, h]
theorem poll_of_waiting (h : s.regs.status = .responseWaiting) : s.poll = s.pollWaiting := by simp [poll, h]
theorem poll_of_invalid (h : s.regs.status = .responseInvalid) : s.poll = s.report s.regs.rxReg .invalid := by
  simp [poll, h]
theorem poll_of_responseReady (h : s.regs.status = .responseReady) : s.poll = s.report s.regs.rxReg .success := by
  simp [poll, h]
theorem poll_of_delay (h : s.regs.status = .delay) : s.poll = s.pollDelay := by simp [poll, h]

theorem poll_of_nothing_to_do
    (h : s.regs.status = .notInitialized ∨ s.regs.status = .ready ∨ s.regs.status = .requestSending) :
    s.poll = s.ignore := by
  rcases h with h | h | h <;> simp [poll, h]

end State

/-- Settles O39: the deadline of the state after the pre-step decides. -/
theorem processMissingEdge : Obligations.ProcessMissingEdge := by
  intro s p d
  have hkept : s.undisciplined = false → d = elapsed s.cfg.tsW s.now p.regs.tRef := by
    simpa [p, d] using p.sinceRef_of_disciplined
  refine ⟨_, exec_process s, s.sameSetting_poll, hkept, fun hstart => ?_, fun hreceiving => ?_⟩ <;> rw [← s.preStep_cfg]
  · rw [State.poll_of_startBit hstart]
    exact p.pollStartBit_effect
  · rw [State.poll_of_receiving hreceiving]
    exact p.pollReceiving_effect

/-- Settles O40: the timeout is reported past the deadline only. -/
theorem processTimeout : Obligations.ProcessTimeout := by
  intro s p d hwaiting
  have hkept : s.undisciplined = false → d = elapsed s.cfg.tsW s.now p.regs.tRef := by
    simpa [p, d] using p.sinceRef_of_disciplined
  refine ⟨_, exec_process s, s.sameSetting_poll, hkept, fun hlate => ?_, fun hintime => ?_⟩ <;>
    rw [State.poll_of_waiting hwaiting, State.pollWaiting, s.preStep_cfg]
  · rw [if_pos hlate, ← s.preStep_now]
    exact ⟨rfl, rfl⟩
  · rw [if_neg hintime.not_gt]
    exact ⟨rfl, rfl⟩

/-- Settles O41: no pre-step acts in the two states, and each reports what `rxReg` holds. -/
theorem processReports : Obligations.ProcessReports := by
  intro s reports
  refine ⟨fun hinvalid => ?_, fun hready => ?_⟩
  · have hpre := s.preStep_of_status (by simp [hinvalid])
    exact ⟨_, exec_process s, s.sameSetting_poll, by rw [hpre, State.poll_of_invalid hinvalid]; exact ⟨rfl, rfl⟩⟩
  · have hpre := s.preStep_of_status (by simp [hready])
    exact ⟨_, exec_process s, s.sameSetting_poll, by rw [hpre, State.poll_of_responseReady hready]; exact ⟨rfl, rfl⟩⟩

/-- Settles O42: no pre-step acts in DELAY, whose gap is R14's. -/
theorem processDelay : Obligations.ProcessDelay := by
  intro s hdelay d
  have hpre := s.preStep_of_status (by simp [hdelay])
  refine ⟨_, exec_process s, s.sameSetting_poll, ?_⟩
  rw [hpre, State.poll_of_delay hdelay]
  exact s.pollDelay_effect

/-- Settles O43: in the three states PROCESS ignores the event. -/
theorem processIdle : Obligations.ProcessIdle := by
  intro s hidle
  refine ⟨_, exec_process s, ?_, ?_, s.sameSetting_poll⟩ <;> rw [State.poll_of_nothing_to_do hidle] <;> rfl

/-! ## Reports (R173) -/

/-- The pre-step neither enters nor leaves DELAY. -/
theorem State.preStep_delay_iff (s : State) : s.preStep.regs.status = .delay ↔ s.regs.status = .delay := by
  rcases s.preStep_cases with ⟨-, hs, -, heq⟩ | ⟨-, heq⟩ <;> rw [heq]
  cases hk : s.regs.txKind <;> simp [afterSending, hk, hs]

/-- PROCESS reports in a state that ends an exchange, or makes no report and does not enter DELAY. -/
theorem State.poll_reports_or_quiet (s : State) :
    ((s.regs.status = .responseWaiting ∨ s.regs.status = .responseInvalid ∨ s.regs.status = .responseReady) ∧
      ∃ v st, st ≠ .none ∧ s.poll = s.report v st) ∨
    (s.poll.out.done = false ∧ (s.poll.regs.status = .delay → s.regs.status = .delay)) := by
  rcases s.poll_cases with heq | ⟨-, -, heq⟩ | ⟨-, -, heq⟩ | ⟨hs, -, heq⟩ | ⟨hs, heq⟩ | ⟨hs, heq⟩ | ⟨-, -, heq⟩ <;>
    rw [heq]
  · exact .inr ⟨rfl, id⟩
  · exact .inr ⟨rfl, nofun⟩
  · exact .inr ⟨rfl, nofun⟩
  · exact .inl ⟨.inl hs, 0#32, .timeout, nofun, rfl⟩
  · exact .inl ⟨.inr (.inl hs), s.regs.rxReg, .invalid, nofun, rfl⟩
  · exact .inl ⟨.inr (.inr hs), s.regs.rxReg, .success, nofun, rfl⟩
  · exact .inr ⟨rfl, nofun⟩

theorem State.onEdge_status_ne_delay (s : State) (l : Level) (h : s.regs.status ≠ .delay) :
    (s.onEdge l).regs.status ≠ .delay := by
  rcases s.onEdge_cases l with heq | ⟨-, _, heq⟩ | ⟨-, -, -, heq⟩ | ⟨-, -, -, heq⟩ | ⟨-, -, -, heq⟩ |
    ⟨-, -, ⟨-, -, heq⟩ | ⟨-, -, heq⟩ | ⟨-, -, -, heq⟩⟩ <;> rw [heq] <;> simp [h]

/-- A command other than PROCESS makes no report and does not enter DELAY. -/
theorem exec_quiet {i : Instr} {s t : State} (hi : i ≠ .process) (hexec : exec i s = .next t) :
    t.out.done = false ∧ (t.regs.status = .delay → s.regs.status = .delay) := by
  rw [← s.preStep_delay_iff]
  cases i <;> cases hexec
  case process => exact absurd rfl hi
  case beginSession | sendRequestAsync | sendResponse =>
    simp only [State.openSession, State.sendRequest, State.sendResponse]
    split
    · exact ⟨rfl, nofun⟩
    · exact ⟨rfl, id⟩
  case endSession => exact ⟨rfl, nofun⟩
  case edge => exact ⟨by rw [State.onEdge_out]; rfl, not_imp_not.1 (s.preStep.onEdge_status_ne_delay _)⟩
  case buildRequest | buildResponse =>
    split
    · exact ⟨rfl, id⟩
    · exact ⟨rfl, s.preStep_delay_iff.2⟩
  all_goals exact ⟨rfl, id⟩

/-- Settles O44: a report is PROCESS's, which keeps what it reports, and no other outcome enters DELAY. -/
theorem onlyProcessReports : Obligations.OnlyProcessReports := by
  intro i s t hexec
  by_cases hi : i = .process
  case neg =>
    obtain ⟨hdone, hdelay⟩ := exec_quiet hi hexec
    exact ⟨fun h => absurd h (by simp [hdone]), fun ht hs => absurd (hdelay ht) hs⟩
  subst hi
  cases hexec
  rcases s.preStep.poll_reports_or_quiet with ⟨hs, v, st, hst, heq⟩ | ⟨hdone, hdelay⟩
  · rw [heq]
    exact ⟨fun _ => ⟨rfl, hs, rfl, rfl, rfl, hst⟩, fun _ _ => rfl⟩
  · exact ⟨fun h => absurd h (by simp [hdone]), fun ht hs => absurd (s.preStep_delay_iff.1 (hdelay ht)) hs⟩

end Sys2Proof.Machine

/-! PROOFS. The clock of a master's exchange (41_transceiver_ops.md R150, R172): what each command and each step does
to it. -/

namespace Sys2Proof.Machine

/-- Going by way of `b` takes no less time. -/
theorem elapsed_le_add (w a b c : Nat) : elapsed w a c ≤ elapsed w a b + elapsed w b c := by
  rw [elapsed_trans w a b c]
  exact Nat.mod_le _ _

/-- No more than `d` microseconds have elapsed `d` microseconds after `t0`, whether or not `d` fits a timestamp. -/
theorem elapsed_addTime_le (w t0 d : Nat) : elapsed w (addTime w t0 d) t0 ≤ d := by
  have hmod : elapsed w (t0 + d) t0 = d % 2 ^ w := elapsed_eq_of_cast (by push_cast; rw [add_sub_cancel_left])
  rw [addTime, ← stamp, elapsed_stamp, hmod]
  exact Nat.mod_le _ _

namespace State.ExchangeClock

variable {s t : State}

/-- A state that awaits no reply has no clock to keep. -/
theorem of_not_awaitsReply (hwaiting : t.regs.status ≠ .responseWaiting) (hawaits : ¬ t.regs.AwaitsReply) :
    t.ExchangeClock :=
  ⟨fun h => absurd h hwaiting, fun _ h => absurd h hawaits⟩

/-- The clock is read from the registers and the parameters, and only a kept discipline bounds it. -/
theorem of_regs_eq (h : s.ExchangeClock) (hregs : t.regs = s.regs) (hcfg : t.cfg = s.cfg)
    (hflag : t.undisciplined = false → s.undisciplined = false) : t.ExchangeClock := by
  refine ⟨?_, fun hkept => ?_⟩ <;> rw [hregs, hcfg]
  · exact h.waiting_since
  · exact h.reference_le (hflag hkept)

theorem answer (h : s.ExchangeClock) (o : Out) : (s.answer o).ExchangeClock := h.of_regs_eq rfl rfl id

theorem accept (h : s.ExchangeClock) (now : Nat) (rest : List Arrival) : (s.accept now rest).ExchangeClock := by
  refine h.of_regs_eq rfl rfl fun hkept => ?_
  rw [accept_undisciplined, Bool.or_eq_false_iff] at hkept
  exact hkept.1

/-- The time since the request's start is at most the time since the reference and what R172 counts up to there. -/
theorem sinceStart_le (h : s.ExchangeClock) (hkept : s.undisciplined = false) (hawaits : s.regs.AwaitsReply) :
    elapsed s.cfg.tsW s.now s.regs.txStart ≤ s.sinceRef + s.regs.latest s.cfg := by
  rw [s.sinceRef_of_disciplined hkept]
  exact (elapsed_le_add _ _ s.regs.tRef _).trans (Nat.add_le_add_left (h.reference_le hkept hawaits) _)

/-! ## The pre-step and the registers' updates -/

/-- The pre-step ends a request at its very end (41_transceiver_ops.md R150), and a response in READY. -/
theorem preStep (h : s.ExchangeClock) : s.preStep.ExchangeClock := by
  rcases s.preStep_cases with ⟨-, -, -, heq⟩ | ⟨-, heq⟩ <;> rw [heq]
  case inr => exact h
  cases hk : s.regs.txKind with
  | response => exact of_not_awaitsReply (by simp [afterSending, hk]) (by simp [Regs.AwaitsReply, afterSending, hk])
  | request =>
    refine ⟨fun _ => rfl, fun _ _ => ?_⟩
    simpa [Regs.latest, afterSending, hk, txEnd] using elapsed_addTime_le _ _ _

/-- An edge that takes a new reference starts the next deadline, if R172 counts the time since the old one. -/
theorem restart (h : s.ExchangeClock) {r : Regs}
    (hs : s.regs.status = .responseWaiting ∨ s.regs.status = .responseStartBit ∨ s.regs.status = .responseReceiving)
    (hr : r.status ≠ .responseWaiting) (hrole : r.role = s.regs.role) (hstart : r.txStart = s.regs.txStart)
    (htRef : r.tRef = s.now) (hlatest : s.sinceRef + s.regs.latest s.cfg ≤ r.latest s.cfg) (o : Out) :
    ((s.setRegs r).answer o).ExchangeClock := by
  refine ⟨fun hw => absurd hw hr, fun hkept hawaits => ?_⟩
  have hle := h.sinceStart_le hkept ⟨hrole ▸ hawaits.1, hs⟩
  rw [← htRef, ← hstart] at hle
  exact hle.trans hlatest

/-! ## The commands -/

/-- PROCESS leaves the exchange as it is, or takes it to a state that awaits nothing. -/
theorem poll (h : s.ExchangeClock) : s.poll.ExchangeClock := by
  rcases s.poll_cases with heq | ⟨-, -, heq⟩ | ⟨-, -, heq⟩ | ⟨-, -, heq⟩ | ⟨-, heq⟩ | ⟨-, heq⟩ | ⟨-, -, heq⟩ <;>
    rw [heq]
  · exact h.answer _
  all_goals exact of_not_awaitsReply (by simp) (by simp [Regs.AwaitsReply])

/-- Each accepted edge lies within the deadline of its state (42_receiver.md R205 to R211). -/
theorem onEdge (h : s.ExchangeClock) (l : Level) : (s.onEdge l).ExchangeClock := by
  rcases s.onEdge_cases l with heq | ⟨-, _, heq⟩ | ⟨-, hrole, -, heq⟩ | ⟨hs, hd, -, heq⟩ | ⟨hs, hd, -, heq⟩ |
    ⟨hs, -, ⟨-, -, heq⟩ | ⟨hd, hi, heq⟩ | ⟨-, -, -, heq⟩⟩ <;> rw [heq]
  · exact h.answer _
  · exact of_not_awaitsReply (by simp) (by simp [Regs.AwaitsReply])
  · exact of_not_awaitsReply (by simp) (by simp [Regs.AwaitsReply, hrole])
  · refine h.restart (r := s.regs.startBit s.now) (.inl hs) nofun rfl rfl rfl ?_ _
    simp only [Regs.latest, hs, Regs.startBit_status]
    omega
  · refine h.restart (r := s.regs.beginData s.now) (.inr (.inl hs)) nofun rfl rfl rfl ?_ _
    simp only [inHalfWindow, Bool.and_eq_true, decide_eq_true_eq] at hd
    simp only [Regs.latest, hs, Regs.beginData_status]
    omega
  · have hkeeps : (s.regs.acceptBoundary l).latest s.cfg = s.regs.latest s.cfg := rfl
    refine ⟨fun hw => absurd (hs.symm.trans hw) nofun, fun hkept hawaits => ?_⟩
    exact (h.reference_le hkept hawaits).trans_eq hkeeps.symm
  · refine h.restart (r := s.regs.acceptBit l s.now) (.inr (.inr hs)) (by simp [hs]) rfl rfl rfl ?_ _
    simp only [inBitWindow, Bool.and_eq_true, decide_eq_true_eq] at hd
    have hnext : (s.regs.bitIndex + 1#6).toNat = s.regs.bitIndex.toNat + 1 := by bv_omega
    simp only [Regs.latest, Regs.acceptBit_status, hs, Regs.acceptBit_bitIndex, hnext, Nat.succ_mul]
    omega
  · exact of_not_awaitsReply (by simp) (by simp [Regs.AwaitsReply])

/-- A session or a transmission that opens awaits nothing yet; every other command leaves what the pre-step does. -/
theorem exec (h : s.ExchangeClock) {i : Instr} (hexec : Machine.exec i s = .next t) : t.ExchangeClock := by
  have hpre := h.preStep
  cases i <;> cases hexec
  case beginSession | sendRequestAsync | sendResponse =>
    simp only [State.openSession, State.sendRequest, State.sendResponse]
    split
    · exact of_not_awaitsReply (by simp) (by simp [Regs.AwaitsReply])
    · exact hpre.answer _
  case endSession => exact of_not_awaitsReply (by simp [closeSession]) (by simp [Regs.AwaitsReply, closeSession])
  case process => exact hpre.poll
  case edge => exact hpre.onEdge _
  case buildRequest | buildResponse =>
    split
    · exact hpre.answer _
    · exact h.answer _
  all_goals exact hpre.answer _

end State.ExchangeClock

/-- Settles O14: a step stays, resets, or runs a command (or answers a command error) on the accepted event, and each of
these keeps the clock. -/
theorem stepKeepsExchangeClock : Obligations.StepKeepsExchangeClock := by
  intro s t hclock hstep
  obtain ⟨-, rfl | ⟨rest, rfl⟩ | ⟨now, rest, ⟨i, hexec⟩ | rfl⟩⟩ := step_cases hstep
  · exact hclock
  · exact .of_not_awaitsReply nofun nofun
  · exact (hclock.accept now rest).exec hexec
  · exact (hclock.accept now rest).answer _

end Sys2Proof.Machine

/-! PROOFS. The bound of a master's exchange (41_transceiver_ops.md R172). -/

namespace Sys2Proof.Machine

/-- Past the time of its transmission a master's request awaits its reply (41_transceiver_ops.md R150). -/
theorem State.Inv.preStep_of_request_over {s : State} (h : s.Inv) (hkept : s.undisciplined = false)
    (hmaster : s.regs.role = .master) (hs : s.regs.status = .requestSending)
    (hover : 34 * s.cfg.tBit ≤ elapsed s.cfg.tsW s.now s.regs.txStart) :
    s.preStep.regs.status = .responseWaiting := by
  have hrequest : s.regs.txKind = .request := (h.regs.sending_role hs).2 hmaster
  rw [preStep_of_sent _ (by simp [sent, hs, s.sinceStart_of_disciplined hkept, hover])]
  simp [afterSending, hrequest]

/-- Past the bound PROCESS finds every deadline of an awaited reply over: it reports the timeout, or ends the reception
as invalid. -/
theorem State.ExchangeClock.poll_past_bound {s : State} (hclock : s.ExchangeClock) (hinv : s.Inv)
    (hkept : s.undisciplined = false) (hawaits : s.regs.AwaitsReply)
    (hlate : s.cfg.bound < elapsed s.cfg.tsW s.now s.regs.txStart) :
    s.poll.out.done = true ∨ s.poll.regs.status = .responseInvalid := by
  have hover := hlate.trans_le (hclock.sinceStart_le hkept hawaits)
  simp only [Params.bound, Regs.latest] at hover
  rcases hawaits.2 with hs | hs | hs <;> rw [hs] at hover <;> dsimp only at hover
  · rw [poll_of_waiting hs, pollWaiting, if_pos (by omega)]
    exact .inl rfl
  · rw [poll_of_startBit hs, pollStartBit, if_pos (by omega)]
    exact .inr rfl
  · have hbits : s.regs.bitIndex.toNat * s.cfg.bitMax ≤ 32 * s.cfg.bitMax :=
      Nat.mul_le_mul_right _ (BitVec.le_def.1 hinv.regs.bitIndex_le)
    rw [poll_of_receiving hs, pollReceiving, if_pos (by omega)]
    exact .inr rfl

/-- PROCESS reports an invalid reception at any time (41_transceiver_ops.md R167). -/
theorem process_reports_of_invalid {s : State} (h : s.regs.status = .responseInvalid) (later : Nat) :
    ∃ u, exec .process { s with now := later } = .next u ∧ u.out.done = true := by
  refine ⟨_, exec_process _, ?_⟩
  have hs : ({ s with now := later } : State).regs.status = .responseInvalid := h
  rw [State.preStep_of_status _ (by simp [h]), State.poll_of_invalid hs]
  rfl

/-- Settles O54: the pre-step ends the request, and then every deadline is over. -/
theorem boundedCompletion : Obligations.BoundedCompletion := by
  intro s t _ hinv hclock hkept hmaster hlate hs hexec
  cases hexec
  have hawaits (h : s.preStep.regs.status = .responseWaiting ∨ s.preStep.regs.status = .responseStartBit ∨
      s.preStep.regs.status = .responseReceiving) : s.preStep.poll.out.done = true ∨
        ∀ later, ∃ u, exec .process { s.preStep.poll with now := later } = .next u ∧ u.out.done = true :=
    (hclock.preStep.poll_past_bound hinv.preStep (by simpa using hkept) ⟨by simpa using hmaster, h⟩
      (by simpa using hlate)).imp_right process_reports_of_invalid
  rcases hs with hs | hs
  · have hover : 34 * s.cfg.tBit ≤ s.cfg.bound := by simp only [Params.bound]; omega
    exact hawaits (.inl (hinv.preStep_of_request_over hkept hmaster hs (hover.trans hlate.le)))
  rw [s.preStep_of_status (by rcases hs with h | h | h | h | h <;> simp [h])] at hawaits ⊢
  rcases hs with hs | hs | hs | hs | hs
  · exact hawaits (.inl hs)
  · exact hawaits (.inr (.inl hs))
  · exact hawaits (.inr (.inr hs))
  · rw [State.poll_of_responseReady hs]
    exact .inl rfl
  · rw [State.poll_of_invalid hs]
    exact .inl rfl

end Sys2Proof.Machine

/-! PROOFS. The edge pattern of a frame's waveform (42_receiver.md R216). -/

namespace Sys2Proof.Machine

/-- A sequence of twice `n` half-bit intervals, slot by slot. -/
theorem filterMap_range_two_mul {α : Type} (g : Nat → Option α) (n : Nat) :
    (List.range (2 * n)).filterMap g = (List.range n).flatMap fun k => [2 * k, 2 * k + 1].filterMap g := by
  induction n with
  | zero => rfl
  | succ n ih =>
    rw [Nat.mul_succ, List.range_succ, List.range_succ, List.range_succ, List.append_assoc, List.filterMap_append, ih,
      List.flatMap_append]
    simp

/-- The transition, if any, at which half-bit interval `h` begins (41_transceiver_ops.md R160). -/
def halfEdge (c : Params) (f : Word32) (t0 h : Nat) : Option (Nat × Level) :=
  if halfLevel f h = (if h = 0 then .idle else halfLevel f (h - 1)) then none
  else some (t0 + h * c.half, halfLevel f h)

/-- The second half of a slot begins with its mid-bit edge. -/
theorem halfEdge_mid (c : Params) (f : Word32) (t0 k : Nat) :
    halfEdge c f t0 (2 * k + 1) = some (t0 + (2 * k + 1) * c.half, secondHalf (wireBit f k)) := by
  rw [halfEdge, if_neg (Nat.succ_ne_zero _), Nat.add_sub_cancel, halfLevel_even, halfLevel_odd,
    if_neg (firstHalf_ne_secondHalf _).symm]

/-- The first half of a slot begins with an edge if the slot is the first or its bit equals the one before. -/
theorem halfEdge_boundary (c : Params) (f : Word32) (t0 k : Nat) :
    halfEdge c f t0 (2 * k) =
      if k = 0 ∨ wireBit f k = wireBit f (k - 1) then some (t0 + 2 * k * c.half, firstHalf (wireBit f k))
      else none := by
  cases k with
  | zero => rfl
  | succ k =>
    rw [halfEdge, halfLevel_even, if_neg (c := 2 * (k + 1) = 0) (by omega), show 2 * (k + 1) - 1 = 2 * k + 1 by omega,
      halfLevel_odd]
    simp [firstHalf_eq_secondHalf]

/-- The two half-bit intervals of a slot begin with the slot's edges. -/
theorem filterMap_halfEdge_slot {c : Params} (hlegal : c.Legal) (f : Word32) (t0 k : Nat) :
    [2 * k, 2 * k + 1].filterMap (halfEdge c f t0) = slotEdges c f t0 k := by
  have htime : 2 * k * c.half = k * c.tBit := by
    rw [← hlegal.half_add_half]
    ring
  have hmid : t0 + (2 * k + 1) * c.half = t0 + k * c.tBit + c.half := by rw [Nat.succ_mul, htime, Nat.add_assoc]
  rw [List.filterMap_cons, halfEdge_boundary, htime, List.filterMap_cons, halfEdge_mid, hmid, slotEdges]
  split_ifs <;> rfl

/-- The waveform's transitions are the frame's edges. -/
theorem waveEdges_eq_frameEdges {c : Params} (hlegal : c.Legal) (f : Word32) (t0 : Nat) :
    waveEdges c f t0 = frameEdges c f t0 := by
  have hhalves : waveEdges c f t0 = (List.range (2 * 34)).filterMap (halfEdge c f t0) := rfl
  rw [hhalves, filterMap_range_two_mul, frameEdges]
  simp only [filterMap_halfEdge_slot hlegal]

/-- The slots from 1 to `n` whose bit equals the one before, counted from 0. -/
def equalPairs (f : Word32) (n : Nat) : List Nat :=
  (List.range n).filter fun k => wireBit f (k + 1) = wireBit f k

/-- Slot 0 has two edges, every other slot one and one for an equal pair. -/
theorem slotEdges_length (c : Params) (f : Word32) (t0 n : Nat) :
    ((List.range (n + 1)).flatMap (slotEdges c f t0)).length = n + 2 + (equalPairs f n).length := by
  induction n with
  | zero => simp [slotEdges, equalPairs]
  | succ n ih =>
    rw [List.range_succ, List.flatMap_append, List.length_append, ih, equalPairs, equalPairs, List.range_succ]
    by_cases hbit : wireBit f (n + 1) = wireBit f n <;> simp [slotEdges, hbit] <;> omega

/-- Bits without an equal pair alternate. -/
theorem wireBit_of_alternating {f : Word32} {n : Nat} (h : ∀ k < n, wireBit f (k + 1) ≠ wireBit f k) :
    wireBit f n = (n % 2 == 0) := by
  induction n with
  | zero => rfl
  | succ n ih =>
    have hne := h n (Nat.lt_succ_self n)
    rw [ih fun k hk => h k (hk.trans (Nat.lt_succ_self n))] at hne
    rcases Nat.mod_two_eq_zero_or_one n with hn | hn <;> simp_all [Nat.add_mod]

/-- The start bit and the stop bit are both 1, an odd number of slots apart. -/
theorem equalPairs_length_pos (f : Word32) : 0 < (equalPairs f 33).length := by
  by_contra hnone
  have halternate := wireBit_of_alternating (f := f) (n := 33) (by simpa [equalPairs] using hnone)
  simp at halternate

/-- Settles O38: slot by slot the transitions are the edges, which are one a slot, the leading one, and one for each
equal pair; 33 pairs from a 1 to a 1 cannot all differ. -/
theorem waveformEdges : Obligations.WaveformEdges := by
  intro c f t0 hlegal
  have hlength : (frameEdges c f t0).length = 35 + (equalPairs f 33).length := slotEdges_length c f t0 33
  have hpairs : (List.range 33).filter (fun k => (wireBits f)[k + 1]? = (wireBits f)[k]?) = equalPairs f 33 := by
    refine List.filter_congr fun k hk => ?_
    have := List.mem_range.1 hk
    rw [wireBits_getElem? f (by omega), wireBits_getElem? f (by omega)]
    simp
  have hle : (equalPairs f 33).length ≤ 33 := (List.length_filter_le ..).trans_eq List.length_range
  have hpos := equalPairs_length_pos f
  rw [hpairs, hlength]
  exact ⟨waveEdges_eq_frameEdges hlegal f t0, rfl, by omega, by omega⟩

end Sys2Proof.Machine

/-! PROOFS. EDGE by the state it finds (42_receiver.md R200 to R213). -/

namespace Sys2Proof.Machine

namespace State

variable {s : State} {l : Level}

/-! ## The dispatch (R201) -/

theorem onEdge_of_readySlave (h : s.regs.status = .ready) (hrole : s.regs.role = .slave) :
    s.onEdge l = s.edgeReadySlave l := by simp [onEdge, h, hrole]
theorem onEdge_of_waiting (h : s.regs.status = .responseWaiting) : s.onEdge l = s.edgeWaiting l := by simp [onEdge, h]
theorem onEdge_of_startBit (h : s.regs.status = .responseStartBit) : s.onEdge l = s.edgeStartBit l := by
  simp [onEdge, h]
theorem onEdge_of_receiving (h : s.regs.status = .responseReceiving) : s.onEdge l = s.edgeReceiving l := by
  simp [onEdge, h]

theorem onEdge_of_ignoring
    (h : s.regs.status = .notInitialized ∨ s.regs.status = .delay ∨ s.regs.status = .requestSending ∨
      s.regs.status = .responseReady ∨ s.regs.status = .responseInvalid ∨
      (s.regs.status = .ready ∧ s.regs.role = .master)) : s.onEdge l = s.ignore := by
  rcases h with h | h | h | h | h | ⟨h, hrole⟩ <;> simp [onEdge, *]

end State

theorem levelOfPin_of_idle {c : Params} {pin : Bit} (h : pin = c.rxIdlePin) : levelOfPin c pin = .idle := if_pos h

theorem levelOfPin_of_active {c : Params} {pin : Bit} (h : pin ≠ c.rxIdlePin) : levelOfPin c pin = .active := if_neg h

/-- EDGE completes with default outputs in the setting it began in (R200). -/
theorem exec_edge_frame (pin : Bit) (s : State) {P : State → Prop} (h : P (s.preStep.onEdge (levelOfPin s.cfg pin))) :
    ∃ t, exec (.edge pin) s = .next t ∧ t.out = Out.default ∧ s.SameSetting t ∧ P t :=
  ⟨_, exec_edge s pin, s.preStep.onEdge_out _, s.sameSetting_onEdge _, h⟩

/-! ## Outside a reception (R201 to R203) -/

/-- Settles O45: EDGE's frame, and the six rows that ignore the edge. -/
theorem edgeIgnored : Obligations.EdgeIgnored := by
  refine fun pin s => exec_edge_frame pin s fun hignoring => ?_
  rw [← s.preStep_role] at hignoring
  rw [State.onEdge_of_ignoring hignoring]
  rfl

/-- Settles O46: by the level of the edge. -/
theorem edgeStartsSlaveReception : Obligations.EdgeStartsSlaveReception := by
  intro pin s hready hslave
  have hedge (l : Level) := State.onEdge_of_readySlave (l := l) hready (s.preStep_role.trans hslave)
  refine exec_edge_frame pin s ⟨fun hactive => ?_, fun hidle => ?_⟩
  · rw [levelOfPin_of_active hactive, hedge, State.edgeReadySlave, ← s.preStep_now]
    rfl
  · rw [levelOfPin_of_idle hidle, hedge]
    rfl

/-! ## The start of a reply (R204 to R208) -/

namespace State

variable {s : State}

/-- Past the deadline an edge is ignored (R204). -/
theorem onEdge_of_late (hs : s.regs.status = .responseWaiting) (hlate : s.cfg.respTimeout < s.sinceRef)
    (l : Level) : s.onEdge l = s.ignore := (onEdge_of_waiting hs).trans (if_pos hlate)

/-- PROCESS past the deadline reports the timeout (41_transceiver_ops.md R166). -/
theorem process_of_late (hs : s.regs.status = .responseWaiting) (hlate : s.cfg.respTimeout < s.sinceRef) :
    exec .process s = .next (s.report 0#32 .timeout) := by
  rw [exec_process, preStep_of_status _ (by simp [hs]), poll_of_waiting hs, pollWaiting, if_pos hlate]

theorem onEdge_wrongStart (hs : s.regs.status = .responseWaiting) (hd : s.sinceRef ≤ s.cfg.respTimeout) :
    s.onEdge .idle = s.fault .polarity := by
  simp only [onEdge_of_waiting hs, edgeWaiting, if_neg hd.not_gt]

theorem inHalfWindow_iff : s.inHalfWindow = true ↔ s.cfg.halfMin ≤ s.sinceRef ∧ s.sinceRef ≤ s.cfg.halfMax := by
  simp [inHalfWindow]

theorem inBitWindow_iff : s.inBitWindow = true ↔ s.cfg.bitMin ≤ s.sinceRef ∧ s.sinceRef ≤ s.cfg.bitMax := by
  simp [inBitWindow]

/-- In RESPONSE_START_BIT every edge but the mid-bit edge in its window is a fault (R208). -/
theorem onEdge_startBit_fault {l : Level} (hs : s.regs.status = .responseStartBit)
    (h : ¬ (s.inHalfWindow = true ∧ l = .idle)) : ∃ cause, s.onEdge l = s.fault cause := by
  rw [onEdge_of_startBit hs]
  unfold edgeStartBit
  split
  next hwindow =>
    cases l with
    | active => exact ⟨.polarity, rfl⟩
    | idle => exact absurd ⟨hwindow, rfl⟩ h
  next => exact ⟨.timing, rfl⟩

end State

/-- Settles O47: the deadline decides first, then the level. -/
theorem edgeWhileWaiting : Obligations.EdgeWhileWaiting := by
  intro pin s hwaiting p d
  have hkept : s.undisciplined = false → d = elapsed s.cfg.tsW s.now p.regs.tRef := by
    simpa [p, d] using p.sinceRef_of_disciplined
  have hcfg : s.cfg = p.cfg := s.preStep_cfg.symm
  refine exec_edge_frame pin s ⟨hkept, fun hlate => ?_, fun hintime hactive => ?_, fun hintime hidle => ?_⟩
  · rw [State.onEdge_of_late hwaiting (hcfg ▸ hlate)]
    exact ⟨rfl, fun later hlater => ⟨_, State.process_of_late hwaiting (hcfg ▸ hlater), rfl⟩⟩
  · rw [levelOfPin_of_active hactive, State.onEdge_start hwaiting (hcfg ▸ hintime), ← s.preStep_now]
    rfl
  · rw [levelOfPin_of_idle hidle, State.onEdge_wrongStart hwaiting (hcfg ▸ hintime)]
    rfl

/-- Settles O48: the mid-bit edge is accepted, every other edge is a fault. -/
theorem edgeInStartBit : Obligations.EdgeInStartBit := by
  intro pin s hs d
  have hpre : s.preStep = s := s.preStep_of_status (by simp [hs])
  refine exec_edge_frame pin s ⟨s.sinceRef_of_disciplined, fun ⟨hlow, hhigh, hidle⟩ => ?_, fun hother => ?_⟩ <;>
    rw [hpre]
  · rw [levelOfPin_of_idle hidle, State.onEdge_startMid hs (State.inHalfWindow_iff.2 ⟨hlow, hhigh⟩)]
    rfl
  · obtain ⟨cause, hfault⟩ := State.onEdge_startBit_fault (l := levelOfPin s.cfg pin) hs fun ⟨hwindow, hlevel⟩ => by
      obtain ⟨hlow, hhigh⟩ := State.inHalfWindow_iff.1 hwindow
      exact hother ⟨hlow, hhigh, by simpa [levelOfPin] using hlevel⟩
    rw [hfault]
    rfl

/-! ## The data bits and the stop bit (R209 to R213) -/

namespace State

variable {s : State} {l : Level}

/-- The windows are disjoint (00_scope.md R9). -/
theorem inHalfWindow_of_inBitWindow (hlegal : s.cfg.Legal) (h : s.inBitWindow = true) : s.inHalfWindow = false := by
  obtain ⟨hlow, -⟩ := inBitWindow_iff.1 h
  have hdisjoint := hlegal.windows_disjoint
  rw [← Bool.not_eq_true, inHalfWindow_iff]
  omega

theorem onEdge_repeated (hs : s.regs.status = .responseReceiving) (hl : l = s.regs.lastLevel) :
    s.onEdge l = s.fault .polarity := by
  rw [onEdge_of_receiving hs, edgeReceiving, if_pos hl]

theorem onEdge_wrongStop (hs : s.regs.status = .responseReceiving) (hl : .active ≠ s.regs.lastLevel)
    (hhalf : s.inHalfWindow = false) (hd : s.inBitWindow = true) (hi : s.regs.bitIndex = 32#6) :
    s.onEdge .active = s.fault .framing := by
  simp [onEdge_of_receiving hs, edgeReceiving, hl, hhalf, hd, hi, edgeStop]

theorem onEdge_outside (hs : s.regs.status = .responseReceiving) (hl : l ≠ s.regs.lastLevel)
    (hhalf : ¬ (s.regs.boundarySeen = false ∧ s.inHalfWindow = true)) (hd : s.inBitWindow = false) :
    s.onEdge l = s.fault .timing := by
  rw [onEdge_of_receiving hs, edgeReceiving, if_neg hl, if_neg hhalf, if_neg (by simp [hd]), if_neg (by simp [hd])]

end State

/-- The bit an edge carries is shifted in as a number (R211, R214). -/
theorem shiftIn_bitOf (v : Word32) (l : Level) :
    shiftIn v (bitOf l) = BitVec.ofNat 32 (2 * v.toNat + if l = .idle then 1 else 0) := by
  refine BitVec.eq_of_toNat_eq ?_
  rw [shiftIn_toNat, BitVec.toNat_ofNat]
  cases l <;> rfl

theorem acceptBit_eq (r : Regs) (l : Level) (t : Nat) :
    r.acceptBit l t = { r with
      rxReg := BitVec.ofNat 32 (2 * r.rxReg.toNat + if l = .idle then 1 else 0)
      bitIndex := BitVec.ofNat 6 (r.bitIndex.toNat + 1), tRef := t, boundarySeen := false, lastLevel := l } := by
  rw [Regs.acceptBit, shiftIn_bitOf, show r.bitIndex + 1#6 = BitVec.ofNat 6 (r.bitIndex.toNat + 1) by bv_omega]

/-- Settles O49: R209 to R213 in their order, of which the disjoint windows leave one. -/
theorem edgeWhileReceiving : Obligations.EdgeWhileReceiving := by
  intro pin s hlegal hs d level invalid inHalf inBit
  have hpre : s.preStep = s := s.preStep_of_status (by simp [hs])
  have hbitWindow (h : inBit) : s.inHalfWindow = false ∧ s.inBitWindow = true :=
    have hbit := State.inBitWindow_iff.2 h
    ⟨State.inHalfWindow_of_inBitWindow hlegal hbit, hbit⟩
  have hlast (h : s.regs.bitIndex.toNat = 32) : s.regs.bitIndex = 32#6 := BitVec.eq_of_toNat_eq h
  refine exec_edge_frame pin s ⟨s.sinceRef_of_disciplined, ?_⟩
  rw [hpre, show levelOfPin s.cfg pin = level from rfl]
  refine ⟨fun hrepeated => by rw [State.onEdge_repeated hs hrepeated]; rfl, fun hlevel =>
    ⟨fun hboundary hhalf => ?_, fun hbit hindex => ?_, fun hbit hindex hidle => ?_, fun hbit hindex hactive => ?_,
      fun hbit hhalf => ?_⟩⟩
  · rw [State.onEdge_boundary hs hlevel hboundary (State.inHalfWindow_iff.2 hhalf)]
    rfl
  · obtain ⟨hhalf, hbit⟩ := hbitWindow hbit
    rw [State.onEdge_bit hs hlevel hhalf hbit hindex]
    exact acceptBit_eq _ _ _
  · obtain ⟨hhalf, hbit⟩ := hbitWindow hbit
    rw [hidle, State.onEdge_stop hs (hidle ▸ hlevel) hhalf hbit (hlast hindex)]
    rfl
  · obtain ⟨hhalf, hbit⟩ := hbitWindow hbit
    rw [hactive, State.onEdge_wrongStop hs (hactive ▸ hlevel) hhalf hbit (hlast hindex)]
    rfl
  · rw [State.onEdge_outside hs hlevel (by rwa [State.inHalfWindow_iff])
      (by rwa [← Bool.not_eq_true, State.inBitWindow_iff])]
    rfl

end Sys2Proof.Machine

/-! PROOFS. The reception of a frame whose edges are displaced (42_receiver.md R215, R217). -/

namespace Sys2Proof

/-- Every window margin is at least twice the displacement `e` (42_receiver.md R217). -/
structure Params.Tolerates (c : Params) (e : Nat) : Prop where
  halfMin_le : c.halfMin + 2 * e ≤ c.half
  le_halfMax : c.half + 2 * e ≤ c.halfMax
  bitMin_le : c.bitMin + 2 * e ≤ c.tBit
  le_bitMax : c.tBit + 2 * e ≤ c.bitMax

end Sys2Proof

namespace Sys2Proof.Machine

/-! ## Displaced edges -/

/-- `t` lies at most `e` microseconds from `nominal`. -/
def Near (e nominal t : Nat) : Prop := nominal ≤ t + e ∧ t ≤ nominal + e

/-- The edge `d` is `x`, displaced by at most `e` microseconds. -/
def DisplacedBy (e : Nat) (x d : Nat × Level) : Prop := Near e x.1 d.1 ∧ d.2 = x.2

theorem near_add_displacement {e : Nat} {d : Int} (hd : |d| ≤ e) (t : Nat) : Near e t ((t : Int) + d).toNat := by
  obtain ⟨hlow, hhigh⟩ := abs_le.1 hd
  unfold Near
  omega

theorem displace_cons (δ : Nat → Int) (x : Nat × Level) (es : List (Nat × Level)) :
    displace δ (x :: es) = (((x.1 : Int) + δ 0).toNat, x.2) :: displace (fun k => δ (k + 1)) es := by
  simp [displace, List.zipIdx_cons, List.zipIdx_succ, Function.comp_def]

theorem displace_length (δ : Nat → Int) (es : List (Nat × Level)) : (displace δ es).length = es.length := by
  simp [displace]

theorem forall₂_displace {e : Nat} {δ : Nat → Int} (hδ : ∀ k, |δ k| ≤ e) (es : List (Nat × Level)) :
    List.Forall₂ (DisplacedBy e) es (displace δ es) := by
  induction es generalizing δ with
  | nil => exact .nil
  | cons x es ih =>
    rw [displace_cons]
    exact .cons ⟨near_add_displacement (hδ 0) x.1, rfl⟩ (ih fun k => hδ (k + 1))

/-! ## The windows of displaced edges -/

namespace State.Clock

variable {s : State} {ref last : Nat} (h : s.Clock ref last) (hs : s.regs.status ≠ .requestSending)
include h hs

theorem inHalfWindow_of_le (hlegal : s.cfg.Legal) (hlow : ref + s.cfg.halfMin ≤ last)
    (hhigh : last ≤ ref + s.cfg.halfMax) : s.inHalfWindow = true := by
  have htBit := hlegal.tBit_lt
  have hmax := hlegal.windows_disjoint.trans_le hlegal.bitMin_le
  rw [inHalfWindow_iff, h.sinceRef_eq hs (by omega)]
  omega

/-- The bit window lies past the half window. -/
theorem inBitWindow_of_le (hlegal : s.cfg.Legal) (hlow : ref + s.cfg.bitMin ≤ last) (hhigh : last ≤ ref + s.cfg.bitMax)
    (hnear : last - ref < 2 ^ (s.cfg.tsW - 1)) : s.inHalfWindow = false ∧ s.inBitWindow = true := by
  have hbit : s.inBitWindow = true := by
    rw [inBitWindow_iff, h.sinceRef_eq hs hnear]
    omega
  exact ⟨inHalfWindow_of_inBitWindow hlegal hbit, hbit⟩

omit hs in
/-- `State.Clock.accept` with further events presented. -/
theorem accept_before {t : Nat} (hlast : last ≤ t) (hnear : t - ref < 2 ^ (s.cfg.tsW - 1)) (rest : List Arrival) :
    (s.accept t rest).Clock ref t := by
  obtain ⟨hkept, hnow, href, hle⟩ := h.accept hlast hnear
  exact ⟨hkept, hnow, href, hle⟩

end State.Clock

/-! ## Edges on the edge port, one step each -/

/-- The block has received `f`, which waits for PROCESS (42_receiver.md R212). -/
def Regs.Holds (f : Word32) (r : Regs) : Prop := r.status = .responseReady ∧ r.rxReg = f ∧ r.bitIndex = 32#6

/-- With the edges `es` presented next and `rest` after them, the block receives `f` in one step for each edge. -/
def State.Reads (f : Word32) (rest : List Arrival) (s : State) (es : List (Nat × Level)) : Prop :=
  s.arrivals = edgeArrivals s.cfg es ++ rest →
    ∃ t, stepN es.length s = .next t ∧ t.regs.Holds f ∧ t.arrivals = rest

theorem State.reads_nil {f : Word32} {rest : List Arrival} {s : State} (h : s.regs.Holds f) : s.Reads f rest [] :=
  fun harrivals => ⟨s, rfl, h, harrivals⟩

/-- What the block reads after the next edge it reads with that edge. -/
theorem State.reads_cons {f : Word32} {rest : List Arrival} {s : State} {d : Nat × Level} {es : List (Nat × Level)}
    (hlegal : s.cfg.Legal) (hs : s.regs.status ≠ .requestSending)
    (h : ∀ q, ((s.accept d.1 q).onEdge d.2).Reads f rest es) : s.Reads f rest (d :: es) := by
  intro harrivals
  have hedge := step_edge ((legal_iff s.cfg).2 hlegal) harrivals
  have hstep := hedge
  rw [exec_edge, preStep_of_status _ (by simpa using hs), accept_cfg, levelOfPin_pinOfLevel] at hstep
  have hset := exec_sameSetting (hedge.symm.trans hstep)
  rw [List.length_cons, stepN, hstep]
  exact h _ (by rw [hset.arrivals, hset.cfg]; rfl)

/-! ## Slot by slot -/

/-- The nominal time of the mid-bit edge of slot `k` (42_receiver.md R216). -/
def midTime (c : Params) (start k : Nat) : Nat := start + k * c.tBit + c.half

theorem midTime_succ (c : Params) (start k : Nat) : midTime c start (k + 1) = midTime c start k + c.tBit := by
  rw [midTime, midTime, Nat.succ_mul]
  omega

/-- The block has just taken the mid-bit edge of slot `k`, at `last`, as its new reference (42_receiver.md R215). -/
structure State.SlotTaken (c : Params) (e : Nat) (f : Word32) (start k last : Nat) (s : State) : Prop where
  cfg : s.cfg = c
  received : s.regs.Received f k
  boundarySeen : s.regs.boundarySeen = false
  level : s.regs.lastLevel = secondHalf (wireBit f k)
  clock : s.Clock last last
  near : Near e (midTime c start k) last

/-- The next edge is the mid-bit edge of slot `k + 1`; the one before came at `last`, at the boundary or before. -/
structure State.AwaitsMid (c : Params) (e : Nat) (f : Word32) (start k last : Nat) (s : State) : Prop where
  cfg : s.cfg = c
  received : s.regs.Received f k
  level : secondHalf (wireBit f (k + 1)) ≠ s.regs.lastLevel
  clock : ∃ ref, s.Clock ref last ∧ Near e (midTime c start k) ref
  last_le : last ≤ midTime c start k + c.half + e

section

variable {c : Params} {e : Nat} {f : Word32} {start k last t : Nat} {s : State}

/-- Between different bits there is no boundary edge. -/
theorem State.SlotTaken.awaitsMid (h : s.SlotTaken c e f start k last) (hbit : wireBit f (k + 1) ≠ wireBit f k) :
    s.AwaitsMid c e f start k last where
  cfg := h.cfg
  received := h.received
  level := by
    rw [h.level]
    exact mt secondHalf_inj.1 hbit
  clock := ⟨last, h.clock, h.near⟩
  last_le := by
    have := h.near.2
    omega

variable (hlegal : c.Legal) (htol : c.Tolerates e)
include hlegal htol

/-- Between equal bits the boundary edge is in the half window, and moves no reference (42_receiver.md R210). -/
theorem State.SlotTaken.onEdge_boundary (h : s.SlotTaken c e f start k last)
    (hbit : wireBit f (k + 1) = wireBit f k) (ht : Near e (start + (k + 1) * c.tBit) t) (q : List Arrival) :
    ((s.accept t q).onEdge (firstHalf (wireBit f (k + 1)))).AwaitsMid c e f start k t := by
  obtain ⟨rfl, hreceived, hboundary, hlevel, hclock, hlast⟩ := h
  have hs : s.regs.status ≠ .requestSending := by simp [hreceived.status]
  obtain ⟨hlow, hhigh⟩ := hlast
  obtain ⟨htlow, hthigh⟩ := ht
  have htime : start + (k + 1) * s.cfg.tBit = midTime s.cfg start k + s.cfg.half := by
    rw [midTime, Nat.succ_mul]
    have := hlegal.half_add_half
    omega
  have htBit := hlegal.tBit_lt
  have hhalf := hlegal.half_add_half
  obtain ⟨hhalfMin, hhalfMax, -, -⟩ := htol
  have haccept := hclock.accept_before (t := t) (by omega) (by omega) q
  have hwindow := haccept.inHalfWindow_of_le hs hlegal (by rw [accept_cfg]; omega) (by rw [accept_cfg]; omega)
  have hopposite : firstHalf (wireBit f (k + 1)) ≠ s.regs.lastLevel := by
    rw [hlevel, hbit]
    exact firstHalf_ne_secondHalf _
  rw [State.onEdge_boundary (s := s.accept t q) hreceived.status hopposite hboundary hwindow]
  exact ⟨rfl, ⟨hreceived.status, hreceived.bitIndex, hreceived.bits⟩, (firstHalf_ne_secondHalf _).symm,
    ⟨last, haccept.setRegs (r := s.regs.acceptBoundary _) hs hs rfl _, hlow, hhigh⟩, by rw [← htime]; exact hthigh⟩

/-- An awaited mid-bit edge is in the bit window. -/
theorem State.AwaitsMid.accept (h : s.AwaitsMid c e f start k last) (ht : Near e (midTime c start (k + 1)) t)
    (q : List Arrival) :
    ∃ ref, (s.accept t q).Clock ref t ∧ (s.accept t q).inHalfWindow = false ∧ (s.accept t q).inBitWindow = true := by
  obtain ⟨rfl, hreceived, -, ⟨ref, hclock, hlow, hhigh⟩, hlast⟩ := h
  have hs : s.regs.status ≠ .requestSending := by simp [hreceived.status]
  obtain ⟨htlow, hthigh⟩ := ht
  rw [midTime_succ] at htlow hthigh
  have hframe := hlegal.frame_fits
  have hhalf := hlegal.half_add_half
  obtain ⟨hhalfMin, -, hbitMin, hbitMax⟩ := htol
  have hnear : t - ref < 2 ^ (s.cfg.tsW - 1) := by omega
  have haccept := hclock.accept_before (t := t) (by omega) hnear q
  exact ⟨ref, haccept,
    haccept.inBitWindow_of_le hs hlegal (by rw [accept_cfg]; omega) (by rw [accept_cfg]; omega) hnear⟩

/-- The mid-bit edge of a data bit is accepted and becomes the reference (42_receiver.md R211). -/
theorem State.AwaitsMid.onEdge_bit (h : s.AwaitsMid c e f start k last) (hk : k < 32)
    (ht : Near e (midTime c start (k + 1)) t) (q : List Arrival) :
    ((s.accept t q).onEdge (secondHalf (wireBit f (k + 1)))).SlotTaken c e f start (k + 1) t := by
  obtain ⟨ref, hclock, hhalf, hbit⟩ := h.accept hlegal htol ht q
  have hs := h.received.status
  rw [State.onEdge_bit (s := s.accept t q) hs h.level hhalf hbit (h.received.bitIndex_lt hk)]
  exact ⟨h.cfg, h.received.acceptBit hk _, rfl, rfl, hclock.restart (by simp [hs]) rfl _, ht⟩

/-- The stop bit's mid-bit edge completes the frame (42_receiver.md R212). -/
theorem State.AwaitsMid.onEdge_stop (h : s.AwaitsMid c e f start 32 last) (ht : Near e (midTime c start 33) t)
    (q : List Arrival) : ((s.accept t q).onEdge (secondHalf (wireBit f 33))).regs.Holds f := by
  obtain ⟨ref, -, hhalf, hbit⟩ := h.accept hlegal htol ht q
  have hidle : secondHalf (wireBit f 33) = .idle := congrArg secondHalf (wireBit_stop f)
  have hlevel := h.level
  rw [hidle] at hlevel ⊢
  rw [State.onEdge_stop (s := s.accept t q) h.received.status hlevel hhalf hbit h.received.bitIndex]
  exact ⟨rfl, h.received.rxReg_eq, h.received.bitIndex⟩

/-- With its mid-bit edge taken, slot `k + 1` is followed by the next one, or ends the frame. -/
theorem State.AwaitsMid.reads (h : s.AwaitsMid c e f start k last) (hk : k ≤ 32) {rest : List Arrival}
    (hnext : k < 32 → ∀ (u : State) (t : Nat) (es : List (Nat × Level)), u.SlotTaken c e f start (k + 1) t →
      List.Forall₂ (DisplacedBy e) (slotsFrom c f start (k + 2)) es → u.Reads f rest es)
    {es : List (Nat × Level)} (hes : List.Forall₂ (DisplacedBy e)
      ((midTime c start (k + 1), secondHalf (wireBit f (k + 1))) :: slotsFrom c f start (k + 2)) es) :
    s.Reads f rest es := by
  cases hes with | @cons _ d _ es hd hes => ?_
  obtain ⟨ht, hlevel⟩ := hd
  refine State.reads_cons (h.cfg ▸ hlegal) (by simp [h.received.status]) fun q => ?_
  rw [hlevel]
  rcases Nat.lt_or_eq_of_le hk with hk | rfl
  · exact hnext hk _ d.1 es (h.onEdge_bit hlegal htol hk ht q) hes
  · rw [slotsFrom_end, List.forall₂_nil_left_iff] at hes
    rw [hes]
    exact State.reads_nil (h.onEdge_stop hlegal htol ht q)

/-- From the mid-bit edge of slot `k` on, the edges that are left complete the frame. -/
theorem State.SlotTaken.reads {k last : Nat} {s : State} (h : s.SlotTaken c e f start k last) (hk : k ≤ 32)
    (rest : List Arrival) {es : List (Nat × Level)}
    (hes : List.Forall₂ (DisplacedBy e) (slotsFrom c f start (k + 1)) es) : s.Reads f rest es := by
  have hnext (hk : k < 32) (u : State) (t : Nat) (es : List (Nat × Level)) (hu : u.SlotTaken c e f start (k + 1) t)
      (hes : List.Forall₂ (DisplacedBy e) (slotsFrom c f start (k + 2)) es) : u.Reads f rest es :=
    hu.reads hk rest hes
  by_cases hbit : wireBit f (k + 1) = wireBit f k
  · rw [slotsFrom_of_eq _ _ _ hk hbit] at hes
    cases hes with | @cons _ d _ es hd hes => ?_
    obtain ⟨ht, hlevel⟩ := hd
    refine State.reads_cons (h.cfg ▸ hlegal) (by simp [h.received.status]) fun q => ?_
    rw [hlevel]
    exact (h.onEdge_boundary hlegal htol hbit ht q).reads hlegal htol hk hnext hes
  · rw [slotsFrom_of_ne _ _ _ hk hbit] at hes
    exact (h.awaitsMid hbit).reads hlegal htol hk hnext hes
termination_by 32 - k

/-- The start bit's mid-bit edge is in the half window (42_receiver.md R207). -/
theorem State.Clock.onEdge_startMid (h : s.Clock last last) (hcfg : s.cfg = c)
    (hs : s.regs.status = .responseStartBit) (hlast : Near e start last) (ht : Near e (start + c.half) t)
    (q : List Arrival) : ((s.accept t q).onEdge .idle).SlotTaken c e f start 0 t := by
  subst hcfg
  obtain ⟨hlow, hhigh⟩ := hlast
  obtain ⟨htlow, hthigh⟩ := ht
  have htBit := hlegal.tBit_lt
  have hhalf := hlegal.half_add_half
  obtain ⟨hhalfMin, hhalfMax, -, -⟩ := htol
  have hsending : s.regs.status ≠ .requestSending := by simp [hs]
  have haccept := h.accept_before (t := t) (by omega) (by omega) q
  have hwindow := haccept.inHalfWindow_of_le hsending hlegal (by rw [accept_cfg]; omega) (by rw [accept_cfg]; omega)
  rw [State.onEdge_startMid (s := s.accept t q) hs hwindow]
  exact ⟨rfl, .beginData f _ _, rfl, rfl, haccept.restart (r := s.regs.beginData _) nofun rfl _,
    by simpa [midTime, Near] using ⟨htlow, hthigh⟩⟩

end

/-- A reply's first edge within the deadline, of an event that keeps the discipline (42_receiver.md R205). -/
theorem State.onEdge_start_of_accept {s : State} {t : Nat} (hlegal : s.cfg.Legal)
    (hs : s.regs.status = .responseWaiting) (hkept : s.undisciplined = false) (htimeout : elapsed s.cfg.tsW t s.regs.tRef ≤ s.cfg.respTimeout)
    (hlast : elapsed s.cfg.tsW t s.now < 2 ^ (s.cfg.tsW - 1)) (q : List Arrival) :
    let u := (s.accept t q).onEdge .active
    u.cfg = s.cfg ∧ u.regs.status = .responseStartBit ∧ u.Clock t t := by
  have hreference : s.reference = s.regs.tRef := reference_of_status (by simp [hs])
  have haccept : (s.accept t q).undisciplined = false := by
    have hfits := hlegal.timeout_fits
    rw [← Bool.not_eq_true, accept_undisciplined_iff, hreference, hkept]
    rintro (h | ⟨-, h | h⟩)
    · cases h
    · omega
    · omega
  have hsince : (s.accept t q).sinceRef ≤ (s.accept t q).cfg.respTimeout := by
    rw [sinceRef_of_disciplined _ haccept, accept_now, accept_cfg, elapsed_stamp]
    exact htimeout
  intro u
  have hu : u = _ := onEdge_start (s := s.accept t q) hs hsince
  rw [hu]
  exact ⟨rfl, rfl, haccept, rfl, rfl, le_rfl⟩

/-- Settles O55: the first edge starts the reception, the second gives it its reference, and from each mid-bit edge to
the next the displacements of two edges add up to at most the windows' margins. -/
theorem receiverReadsEveryFrame : Obligations.ReceiverReadsEveryFrame := by
  intro s f t0 e δ rest hlegal hs hkept hhalfMin hhalfMax hbitMin hbitMax hδ _ htimeout hlast harrivals
  have htol : s.cfg.Tolerates e := ⟨hhalfMin, hhalfMax, hbitMin, hbitMax⟩
  have hreads : s.Reads f rest (displace δ (frameEdges s.cfg f t0)) := by
    rw [frameEdges_eq_cons, displace_cons, displace_cons]
    refine State.reads_cons hlegal (by simp [hs]) fun q => ?_
    obtain ⟨hcfg, hstart, hclock⟩ := State.onEdge_start_of_accept hlegal hs hkept htimeout hlast q
    refine State.reads_cons (hcfg ▸ hlegal) (by simp [hstart]) fun q' => ?_
    refine (hclock.onEdge_startMid hlegal htol hcfg hstart (near_add_displacement (hδ 0) t0) ?_ q').reads
      hlegal htol (Nat.zero_le 32) rest (forall₂_displace (fun k => hδ (k + 1 + 1)) _)
    exact near_add_displacement (hδ 1) _
  obtain ⟨t, hrun, ⟨hready, hrxReg, hindex⟩, hrest⟩ := hreads harrivals
  rw [displace_length] at hrun
  refine ⟨t, hrun, hready, hrxReg, hindex, hrest, fun later => ?_⟩
  obtain ⟨u, hexec, -, -, hout⟩ := (processReports { t with now := later }).2 hready
  exact ⟨u, hexec, hout.trans (by rw [← hrxReg])⟩

end Sys2Proof.Machine

/-! PROOFS. A poll between two edges (42_receiver.md R218). -/

namespace Sys2Proof.Machine

namespace State

/-- An edge reads no outputs. -/
theorem onEdge_answer (s : State) (o : Out) (l : Level) : (s.answer o).onEdge l = s.onEdge l := rfl

variable {s : State}

/-- Past the deadline of PROCESS in RESPONSE_START_BIT every edge is a fault (R208; 41_transceiver_ops.md R164). -/
theorem onEdge_of_late_startBit (hs : s.regs.status = .responseStartBit) (hlate : s.cfg.halfMax < s.sinceRef)
    (l : Level) : ∃ cause, s.onEdge l = s.fault cause :=
  onEdge_startBit_fault hs fun h => (inHalfWindow_iff.1 h.1).2.not_gt hlate

/-- Past the deadline of PROCESS in RESPONSE_RECEIVING every edge is a fault (R209, R213;
41_transceiver_ops.md R165). -/
theorem onEdge_of_late_receiving (hlegal : s.cfg.Legal) (hs : s.regs.status = .responseReceiving)
    (hlate : s.cfg.bitMax < s.sinceRef) (l : Level) : ∃ cause, s.onEdge l = s.fault cause := by
  have hmax : s.cfg.halfMax < s.cfg.bitMax :=
    hlegal.windows_disjoint.trans_le (hlegal.bitMin_le.trans hlegal.tBit_le)
  by_cases hl : l = s.regs.lastLevel
  · exact ⟨_, onEdge_repeated hs hl⟩
  · refine ⟨_, onEdge_outside hs hl (fun h => ?_) ?_⟩
    · exact ((inHalfWindow_iff.1 h.2).2.trans_lt hmax).not_gt hlate
    · rw [← Bool.not_eq_true, inBitWindow_iff]
      exact fun h => h.2.not_gt hlate

theorem exec_edge_of_status (hs : s.regs.status ≠ .requestSending) (pin : Bit) :
    exec (.edge pin) s = .next (s.onEdge (levelOfPin s.cfg pin)) := by
  rw [exec_edge, preStep_of_status _ hs]

/-- Once the outcome is fixed or reported, edges are ignored (R202). -/
theorem exec_edge_of_over (hs : s.regs.status = .responseInvalid ∨ s.regs.status = .delay) (pin : Bit) :
    exec (.edge pin) s = .next s.ignore := by
  rw [exec_edge_of_status (by rcases hs with h | h <;> simp [h]), onEdge_of_ignoring]
  rcases hs with h | h <;> simp [h]

end State

/-- Settles O53: a poll that acts comes past the deadline of its state, and an edge after it is as late. -/
theorem pollIndependence : Obligations.PollIndependence := by
  intro s u v v' a b pin hlegal hkept _ hs horder hpoll hedge hedge'
  have hsending : s.regs.status ≠ .requestSending := by rcases hs with h | h | h <;> simp [h]
  let before : State := { s with now := a }
  let after : State := { s with now := b }
  have hle : before.sinceRef ≤ after.sinceRef := by
    rwa [before.sinceRef_of_disciplined hkept, after.sinceRef_of_disciplined hkept]
  rw [exec_process, State.preStep_of_status before hsending] at hpoll
  rw [State.exec_edge_of_status (s := after) hsending] at hedge'
  cases hpoll
  cases hedge'
  have hinvalid {cause : FaultCause} (heq : before.poll = before.fault cause)
      (hafter : ∃ cause', after.onEdge (levelOfPin s.cfg pin) = after.fault cause') :
      v.regs.status = .responseInvalid ∧ (after.onEdge (levelOfPin s.cfg pin)).regs.status = .responseInvalid ∧
        v.regs.rxReg = (after.onEdge (levelOfPin s.cfg pin)).regs.rxReg := by
    obtain ⟨_, hafter⟩ := hafter
    rw [heq, State.exec_edge_of_over (.inl rfl)] at hedge
    cases hedge
    rw [hafter]
    exact ⟨rfl, rfl, rfl⟩
  rcases before.poll_cases with heq | ⟨hstart, hlate, heq⟩ | ⟨hreceiving, hlate, heq⟩ | ⟨hwaiting, hlate, heq⟩ |
    ⟨hover, -⟩ | ⟨hover, -⟩ | ⟨hover, -⟩
  · rw [heq] at hedge ⊢
    cases (State.exec_edge_of_status (s := after.ignore) hsending pin).symm.trans hedge
    exact .inl ⟨rfl, congrArg State.regs (after.onEdge_answer _ _)⟩
  · exact .inr (.inl (hinvalid heq (State.onEdge_of_late_startBit (s := after) hstart (hlate.trans_le hle) _)))
  · exact .inr (.inl (hinvalid heq
      (State.onEdge_of_late_receiving (s := after) hlegal hreceiving (hlate.trans_le hle) _)))
  · rw [heq, State.exec_edge_of_over (.inr rfl)] at hedge
    cases hedge
    rw [State.onEdge_of_late (s := after) hwaiting (hlate.trans_le hle)]
    exact .inr (.inr ⟨rfl, rfl, rfl, _, State.process_of_late (s := after.ignore) hwaiting (hlate.trans_le hle),
      rfl, rfl, rfl⟩)
  all_goals exact absurd (show s.regs.status = _ from hover) (by rcases hs with h | h | h <;> simp [h])

end Sys2Proof.Machine

/-! PROOFS. No error is fatal (60_exceptions.md R240): a block with legal parameters always steps. -/

namespace Sys2Proof.Machine

/-- Settles O9: past the test of R9 every arrival is answered by a next state, and no step writes the parameters. -/
theorem legalStepAlwaysNext : Obligations.LegalStepAlwaysNext := by
  intro s hlegal
  obtain ⟨t, hstep⟩ := step_next_of_legal ((legal_iff s.cfg).2 hlegal)
  exact ⟨t, hstep, step_cfg hstep⟩

end Sys2Proof.Machine

/-! PROOFS. The block before BEGIN, and the flag of the timestamp discipline (70_reset_and_hazards.md R273, R276, R281;
93_implementation_defined.md I21). -/

namespace Sys2Proof.Machine

/-! ## Before BEGIN (R273) -/

namespace State

variable {s : State} (h : s.regs.status = .notInitialized)

include h

theorem preStep_of_notInitialized : s.preStep = s := s.preStep_of_status (by simp [h])

theorem sendRequest_of_notInitialized (f : Word32) : s.sendRequest f = s.reject := if_neg (by simp [h])

theorem sendResponse_of_notInitialized (f : Word32) : s.sendResponse f = s.reject := if_neg (by simp [h])

theorem closeSession_of_notInitialized : s.closeSession = s.ignore := by
  have hregs : s.regs.setStatus .notInitialized = s.regs := by rw [← h]; rfl
  rw [closeSession, hregs]
  rfl

end State

/-- Before BEGIN the sends are rejected, END, PROCESS and EDGE find nothing to do, and codec and query commands write no
register. -/
theorem exec_regs_of_notInitialized {i : Instr} {s t : State} (hs : s.regs.status = .notInitialized)
    (hbegin : ∀ b, i ≠ .beginSession b) (hexec : exec i s = .next t) : t.regs = s.regs := by
  have hpre := State.preStep_of_notInitialized hs
  by_cases hi : Codec i ∨ Query i
  case pos =>
    rcases exec_codec_or_query hi hexec with ⟨-, hregs⟩ | ⟨-, hregs⟩
    · exact hregs
    · rwa [hpre] at hregs
  case neg =>
    cases i <;> cases hexec
    case beginSession b => exact absurd rfl (hbegin b)
    case endSession => rw [hpre, State.closeSession_of_notInitialized hs]; rfl
    case sendRequestAsync => rw [hpre, State.sendRequest_of_notInitialized hs]; rfl
    case sendResponse => rw [hpre, State.sendResponse_of_notInitialized hs]; rfl
    case process => rw [hpre, State.poll_of_nothing_to_do (.inl hs)]; rfl
    case edge => rw [hpre, State.onEdge_of_ignoring (.inl hs)]; rfl
    all_goals exact absurd (by simp [Codec, Query]) hi

/-- Settles O51: no pre-step acts, and each command but BEGIN ignores the event or is rejected. -/
theorem onlyBeginOpensSession : Obligations.OnlyBeginOpensSession := by
  intro i s t hs hexec
  refine ⟨fun hbegin => exec_regs_of_notInitialized hs hbegin hexec, ?_⟩
  rintro ⟨f, rfl | rfl⟩ <;> cases hexec <;> rw [State.preStep_of_notInitialized hs]
  · rw [State.sendRequest_of_notInitialized hs]
    rfl
  · rw [State.sendResponse_of_notInitialized hs]
    rfl

/-! ## What sets the flag of the discipline (R276) -/

namespace State

variable (s : State)

theorem reference_eq_ite :
    s.reference = if s.regs.status = .requestSending then s.regs.txStart else s.regs.tRef := by
  split
  case isTrue h => exact reference_of_sending h
  case isFalse h => exact reference_of_status h

/-- Once the host has broken the discipline, an elapsed time is a free value (93_implementation_defined.md I21). -/
theorem timeSince_of_undisciplined (h : s.undisciplined = true) (t t0 : Nat) :
    s.timeSince t t0 = Config.freeElapsed s.freeIndex t t0 % 2 ^ s.cfg.tsW := if_pos h

/-! ## What clears it (R281) -/

/-- Of BEGIN's outcomes the accepted one clears the flag. -/
theorem openSession_undisciplined_iff (x : Role) : (s.openSession x).undisciplined = true ↔
    s.undisciplined = true ∧ (s.openSession x).out.ok = false := by
  unfold openSession
  split <;> simp [Out.default, Out.rejected]

/-- Of SEND_REQUEST_ASYNC's outcomes the accepted one clears the flag. -/
theorem sendRequest_undisciplined_iff (f : Word32) : (s.sendRequest f).undisciplined = true ↔
    s.undisciplined = true ∧ (s.sendRequest f).out.ok = false := by
  unfold sendRequest
  split <;> simp [Out.default, Out.rejected]

/-- Of SEND_RESPONSE's outcomes the accepted one clears the flag. -/
theorem sendResponse_undisciplined_iff (f : Word32) : (s.sendResponse f).undisciplined = true ↔
    s.undisciplined = true ∧ (s.sendResponse f).out.ok = false := by
  unfold sendResponse
  split <;> simp [Out.default, Out.rejected]

/-- Of PROCESS's outcomes the reports clear the flag. -/
theorem poll_undisciplined_iff : s.poll.undisciplined = true ↔
    s.undisciplined = true ∧ s.poll.out.done = false := by
  rcases s.poll_cases with h | ⟨-, -, h⟩ | ⟨-, -, h⟩ | ⟨-, -, h⟩ | ⟨-, h⟩ | ⟨-, h⟩ | ⟨-, -, h⟩ <;> rw [h] <;>
    simp [Out.default, Out.report]

/-- Of an edge's outcomes a slave's start of reception clears the flag. -/
theorem onEdge_undisciplined_iff (l : Level) : (s.onEdge l).undisciplined = true ↔
    s.undisciplined = true ∧ ¬ (s.regs.status = .ready ∧ s.regs.role = .slave ∧ l = .active) := by
  by_cases hstart : s.regs.status = .ready ∧ s.regs.role = .slave ∧ l = .active
  case pos =>
    obtain ⟨hready, hslave, rfl⟩ := hstart
    simp [onEdge_of_readySlave hready hslave, edgeReadySlave, hready, hslave]
  case neg =>
    suffices hkept : (s.onEdge l).undisciplined = s.undisciplined by simp [hkept, hstart]
    rcases s.onEdge_cases l with h | ⟨-, _, h⟩ | ⟨hready, hslave, hl, -⟩ | ⟨-, -, -, h⟩ | ⟨-, -, -, h⟩ |
      ⟨-, -, ⟨-, -, h⟩ | ⟨-, -, h⟩ | ⟨-, -, -, h⟩⟩
    case inr.inr.inl => exact absurd ⟨hready, hslave, hl⟩ hstart
    all_goals rw [h]; rfl

end State

theorem levelOfPin_eq_active_iff {c : Params} {pin : Bit} : levelOfPin c pin = .active ↔ pin ≠ c.rxIdlePin := by
  refine ⟨fun hactive hidle => ?_, levelOfPin_of_active⟩
  rw [levelOfPin_of_idle hidle] at hactive
  cases hactive

/-- The command on `s`, which leaves `t`, is an accepted BEGIN or send or a slave's start edge: the timestamps of the
exchange before it are no longer read (log entry 4). -/
def Opens (i : Instr) (s t : State) : Prop :=
  (t.out.ok = true ∧
    ((∃ b, i = .beginSession b) ∨ (∃ f, i = .sendRequestAsync f) ∨ ∃ f, i = .sendResponse f)) ∨
  (s.preStep.regs.status = .ready ∧ s.regs.role = .slave ∧ ∃ pin, i = .edge pin ∧ pin ≠ s.cfg.rxIdlePin)

/-- A command keeps the flag unless it reports or opens. -/
theorem exec_undisciplined_iff {i : Instr} {s t : State} (hexec : exec i s = .next t) :
    t.undisciplined = true ↔ s.undisciplined = true ∧ ¬ t.out.done = true ∧ ¬ Opens i s t := by
  by_cases hi : i = .process
  case pos =>
    subst hi
    cases hexec
    simp [State.poll_undisciplined_iff, Opens]
  case neg =>
    obtain ⟨hdone, -⟩ := exec_quiet hi hexec
    simp only [hdone, Bool.false_eq_true, not_false_eq_true, true_and]
    cases i <;> cases hexec
    case process => exact absurd rfl hi
    case beginSession => simp [State.openSession_undisciplined_iff, Opens]
    case sendRequestAsync => simp [State.sendRequest_undisciplined_iff, Opens]
    case sendResponse => simp [State.sendResponse_undisciplined_iff, Opens]
    case edge => simp [State.onEdge_undisciplined_iff, levelOfPin_eq_active_iff, Opens]
    case endSession => simp [State.closeSession, Opens]
    case buildRequest | buildResponse => split <;> simp [Opens]
    all_goals simp [Opens]

/-- Settles O8: an event's presentation alone sets the flag, and command by command, and in a reset, what clears it. -/
theorem timestampDiscipline : Obligations.TimestampDiscipline := by
  refine ⟨fun s now rest => ⟨rfl, ?_⟩, fun i s t => exec_undisciplined_iff, fun s rest hlegal harr => ?_,
    fun s t t0 => ⟨fun h => s.timeSince_of_disciplined h t t0, fun h => s.timeSince_of_undisciplined h t t0⟩⟩
  · rw [s.accept_undisciplined_iff, s.exchangeOpen_iff, s.reference_eq_ite]
  · exact ⟨_, step_reset ((legal_iff s.cfg).2 hlegal) harr, rfl⟩

end Sys2Proof.Machine
